-- ==== Sys2Proof/Word.lean ====
section
/-! DEFINITION. The word types of UFE: every quantity is an unsigned byte or an unsigned 16-bit value (R8, R81). -/

namespace Sys2Proof

/-- A byte: 8 bits, unsigned, bit 7 the most significant (R8). -/
abbrev Byte := BitVec 8

/-- A 16-bit unsigned value: the checksum (R62) and the value QUERY returns (R40). -/
abbrev Word16 := BitVec 16

end Sys2Proof
end

