-- ==== Sys2Proof/Config.lean ====
section
/-! DEFINITION. The configuration of UFE (00_scope.md R6, R7; 10_state.md R14): VARIANT and the open parameters. The literals of
R6's table (START, VERSION, …) stand at the head of Sys2Proof/Decode.lean, where a repair may edit them (D26). -/

namespace Sys2Proof

/-- VARIANT, the Module Variant, in the order of its 2-bit numbers STD 0, INV 1, SLOW 2, NONE 3 (R7, R14). -/
inductive Variant
  | std
  | inv
  | slow
  | none
  deriving DecidableEq, Repr

/-- SYNC_FRAMING, how QUERY cuts the inbound stream into a frame (R6, R125, R126; C6). -/
inductive SyncFraming
  | resync
  | blind
  deriving DecidableEq, Repr

/-- SRC_RULE, a total function of (`RXB[3]`, `RXB[5]`, `RXB[6]`) to an optional byte (R6, R120), held as plain data: the
table of the triples that store a byte. Every such function is some table (log 2); the default "always none" is `[]`. -/
abbrev SrcRule := List ((Byte × Byte × Byte) × Byte)

/-- What is fixed at startup, before the first operation (R7, R14, R215); no step writes it. -/
structure Params where
  variant : Variant
  framing : SyncFraming
  srcRule : SrcRule
  deriving DecidableEq, Repr

/-- SETTLE_MS, the settle delay of the SLOW variant in milliseconds: an open parameter, "natural number" (R6, R90). It has no
body, so nothing can be proved of its value (log 3). -/
opaque Config.settleMs : Nat

end Sys2Proof
end

