-- ==== Sys2Proof/Syntax.lean ====
section
/-! DEFINITION. The instruction set of UFE: one constructor per row of spec/opcode_table.json (R2, R63 to R66, R70), and the
ports a transaction comes in at. -/

namespace Sys2Proof

/-- MODE: which of the two mutually exclusive phases is active (R25), SYNC = 0, ASYNC = 1. -/
inductive Mode
  | sync
  | async
  deriving DecidableEq, Repr

/-- The bytes of an inbound frame's 7-byte prefix that its table row leaves free: an `rx` row fixes START and OPCODE only
(R63). -/
structure RxFields where
  version : Byte
  length : Byte
  ackFlag : Byte
  dh : Byte
  dl : Byte
  deriving DecidableEq, Repr

/-- One constructor per row of the opcode table. An `rx` row is a completed inbound frame as the Response Interpreter sees it
(R113, log 12). -/
inductive Instr
  /-- `play-next dh, dl`, command 0x01 (R136). -/
  | playNext (dh dl : Byte)
  /-- `play-previous dh, dl`, command 0x02 (R137). -/
  | playPrevious (dh dl : Byte)
  /-- `play-track dh, dl`, command 0x03 (R138). -/
  | playTrack (dh dl : Byte)
  /-- `volume-up dh, dl`, command 0x04 (R139). -/
  | volumeUp (dh dl : Byte)
  /-- `volume-down dh, dl`, command 0x05 (R140). -/
  | volumeDown (dh dl : Byte)
  /-- `set-volume dh, dl`, command 0x06 (R141). -/
  | setVolume (dh dl : Byte)
  /-- `set-equalizer dh, dl`, command 0x07 (R142). -/
  | setEqualizer (dh dl : Byte)
  /-- `repeat-track dh, dl`, command 0x08 (R143). -/
  | repeatTrack (dh dl : Byte)
  /-- `set-source dh, dl`, command 0x09 (R144). -/
  | setSource (dh dl : Byte)
  /-- `sleep dh, dl`, command 0x0A (R145). -/
  | sleep (dh dl : Byte)
  /-- `wake dh, dl`, command 0x0B (R146). -/
  | wake (dh dl : Byte)
  /-- `reset dh, dl`, command 0x0C (R147). -/
  | reset (dh dl : Byte)
  /-- `play dh, dl`, command 0x0D (R148). -/
  | play (dh dl : Byte)
  /-- `pause dh, dl`, command 0x0E (R149). -/
  | pause (dh dl : Byte)
  /-- `play-folder dh, dl`, command 0x0F (R150). -/
  | playFolder (dh dl : Byte)
  /-- `set-dac-gain dh, dl`, command 0x10 (R151). -/
  | setDacGain (dh dl : Byte)
  /-- `repeat-all dh, dl`, command 0x11 (R152). -/
  | repeatAll (dh dl : Byte)
  /-- `play-mp3-folder dh, dl`, command 0x12 (R153). -/
  | playMp3Folder (dh dl : Byte)
  /-- `play-advert-folder dh, dl`, command 0x13 (R154). -/
  | playAdvertFolder (dh dl : Byte)
  /-- `play-3000-folder dh, dl`, command 0x14 (R155). -/
  | play3000Folder (dh dl : Byte)
  /-- `stop-advert-folder dh, dl`, command 0x15 (R156). -/
  | stopAdvertFolder (dh dl : Byte)
  /-- `stop dh, dl`, command 0x16 (R157). -/
  | stop (dh dl : Byte)
  /-- `repeat-folder dh, dl`, command 0x17 (R158). -/
  | repeatFolder (dh dl : Byte)
  /-- `random-all dh, dl`, command 0x18 (R159). -/
  | randomAll (dh dl : Byte)
  /-- `loop-track dh, dl`, command 0x19 (R160). -/
  | loopTrack (dh dl : Byte)
  /-- `enable-dac dh, dl`, command 0x1A (R161). -/
  | enableDac (dh dl : Byte)
  /-- `query-0x42 dh, dl`, query 0x42, outbound (R163). -/
  | query42 (dh dl : Byte)
  /-- The answer to query 0x42, inbound (R163). -/
  | query42Rx (f : RxFields)
  /-- `get-volume dh, dl`, query 0x43, outbound (R164). -/
  | getVolume (dh dl : Byte)
  /-- The answer to query 0x43, inbound (R164). -/
  | getVolumeRx (f : RxFields)
  /-- `query-0x44 dh, dl`, query 0x44, outbound (R165). -/
  | query44 (dh dl : Byte)
  /-- The answer to query 0x44, inbound (R165). -/
  | query44Rx (f : RxFields)
  /-- `query-0x45 dh, dl`, query 0x45, outbound (R166). -/
  | query45 (dh dl : Byte)
  /-- The answer to query 0x45, inbound (R166). -/
  | query45Rx (f : RxFields)
  /-- `query-0x46 dh, dl`, query 0x46, outbound (R167). -/
  | query46 (dh dl : Byte)
  /-- The answer to query 0x46, inbound (R167). -/
  | query46Rx (f : RxFields)
  /-- `query-0x47 dh, dl`, query 0x47, outbound (R168). -/
  | query47 (dh dl : Byte)
  /-- The answer to query 0x47, inbound (R168). -/
  | query47Rx (f : RxFields)
  /-- `query-0x48 dh, dl`, query 0x48, outbound (R169). -/
  | query48 (dh dl : Byte)
  /-- The answer to query 0x48, inbound (R169). -/
  | query48Rx (f : RxFields)
  /-- `query-0x49 dh, dl`, query 0x49, outbound (R170). -/
  | query49 (dh dl : Byte)
  /-- The answer to query 0x49, inbound (R170). -/
  | query49Rx (f : RxFields)
  /-- `query-0x4A dh, dl`, query 0x4A, outbound (R171). -/
  | query4A (dh dl : Byte)
  /-- The answer to query 0x4A, inbound (R171). -/
  | query4ARx (f : RxFields)
  /-- `query-0x4B dh, dl`, query 0x4B, outbound (R172). -/
  | query4B (dh dl : Byte)
  /-- The answer to query 0x4B, inbound (R172). -/
  | query4BRx (f : RxFields)
  /-- `query-0x4C dh, dl`, query 0x4C, outbound (R173). -/
  | query4C (dh dl : Byte)
  /-- The answer to query 0x4C, inbound (R173). -/
  | query4CRx (f : RxFields)
  /-- `query-0x4D dh, dl`, query 0x4D, outbound (R174). -/
  | query4D (dh dl : Byte)
  /-- The answer to query 0x4D, inbound (R174). -/
  | query4DRx (f : RxFields)
  /-- `query-0x4E dh, dl`, query 0x4E, outbound (R175). -/
  | query4E (dh dl : Byte)
  /-- The answer to query 0x4E, inbound (R175). -/
  | query4ERx (f : RxFields)
  /-- `query-0x4F dh, dl`, query 0x4F, outbound (R176). -/
  | query4F (dh dl : Byte)
  /-- The answer to query 0x4F, inbound (R176). -/
  | query4FRx (f : RxFields)
  /-- Status frame done, 0x3D: playback-done (R115). -/
  | done (f : RxFields)
  /-- Status frame ready, 0x3F: boot-ready (R116). -/
  | ready (f : RxFields)
  /-- Status frame error, 0x40: error, the subcode in DATA_LOW (R117). -/
  | error (f : RxFields)
  /-- Status frame ok-ack, 0x41: command-accepted (R118). -/
  | okAck (f : RxFields)
  /-- `CKSUM v, b1..b6`, the checksum function; `v` is VARIANT (R75). -/
  | cksum (b1 b2 b3 b4 b5 b6 : Byte)
  /-- `ENCODE op, dh, dl`, pure frame construction (R83). -/
  | encode (op dh dl : Byte)
  /-- `SEND op, dh, dl`: encode, transmit, settle (R87). -/
  | send (op dh dl : Byte)
  /-- `RX b`: the inbound byte `b` (R97). -/
  | rxbyte (b : Byte)
  /-- `QUERY e`: synchronous query expecting opcode `e` (R124). -/
  | query (e : Byte)
  /-- `SETMODE m` (R181). -/
  | setmode (m : Mode)
  /-- `CLRSTAT mask`: bit 0 READY, 1 DONE, 2 OK, 3 ERRCODE, 4 SOURCE (R183, R24). -/
  | clrstat (mask : BitVec 5)
  /-- `RDSTAT f`: 0 READY, 1 DONE, 2 OK, 3 ERRCODE, 4 SOURCE (R185); the operand word has 3 bits (R70). -/
  | rdstat (f : BitVec 3)
  deriving DecidableEq, Repr

/-- Where a transaction comes in. Each operation has a port of its own and no opcode bits (R70); a frame prefix is named by its
direction, which tells an outbound row from an inbound row (R63). -/
inductive Port
  | command
  | inbound
  | cksum
  | encode
  | send
  | rxbyte
  | query
  | setmode
  | clrstat
  | rdstat
  deriving DecidableEq, Repr

/-- A transaction: a port and the bytes of its operand word or frame prefix, the most significant first (offset 0 of a frame
first, R63). A word that is not whole bytes stands in the low bits of its byte (log 13). -/
structure Txn where
  port : Port
  bytes : List Byte
  deriving DecidableEq, Repr

end Sys2Proof
end

