-- ==== Sys2Proof/WellFormed.lean ====
section
/-! DEFINITION. Well-formedness of an instruction: its operands are ones the spec gives a meaning to. The widths are carried by
the operand types; the one operand with values the spec does not use is RDSTAT's field index. -/

namespace Sys2Proof

/-- RDSTAT's index names a field: "a field index 0 to 4 … indexes 5 to 7 are not used" (R185). -/
def Instr.namesStatusField (f : BitVec 3) : Bool := f.toNat ≤ 4

/-- Every other operand is legal at every value (R67, R84: "every value 0x00 to 0xFF encodes"). -/
def Instr.wellFormed : Instr → Bool
  | .rdstat f => Instr.namesStatusField f
  | .playNext _ _ | .playPrevious _ _ | .playTrack _ _ | .volumeUp _ _ | .volumeDown _ _ | .setVolume _ _
  | .setEqualizer _ _ | .repeatTrack _ _ | .setSource _ _ | .sleep _ _ | .wake _ _ | .reset _ _ | .play _ _
  | .pause _ _ | .playFolder _ _ | .setDacGain _ _ | .repeatAll _ _ | .playMp3Folder _ _ | .playAdvertFolder _ _
  | .play3000Folder _ _ | .stopAdvertFolder _ _ | .stop _ _ | .repeatFolder _ _ | .randomAll _ _ | .loopTrack _ _
  | .enableDac _ _ | .query42 _ _ | .query42Rx _ | .getVolume _ _ | .getVolumeRx _ | .query44 _ _ | .query44Rx _
  | .query45 _ _ | .query45Rx _ | .query46 _ _ | .query46Rx _ | .query47 _ _ | .query47Rx _ | .query48 _ _
  | .query48Rx _ | .query49 _ _ | .query49Rx _ | .query4A _ _ | .query4ARx _ | .query4B _ _ | .query4BRx _
  | .query4C _ _ | .query4CRx _ | .query4D _ _ | .query4DRx _ | .query4E _ _ | .query4ERx _ | .query4F _ _
  | .query4FRx _ | .done _ | .ready _ | .error _ | .okAck _ | .cksum _ _ _ _ _ _ | .encode _ _ _ | .send _ _ _
  | .rxbyte _ | .query _ | .setmode _ | .clrstat _ => true

end Sys2Proof
end

