-- ==== Sys2Proof/Decode.lean ====
section
/-! DEFINITION. The constants of 00_scope.md R6, in one place: the machine writes each by its name only (D26). Then the decoder of
transactions (total on any bytes, rejecting by name) and the encoder, both written from 30_encoding.md (R56 to R70) and the
opcode tables R64 to R66. -/

namespace Sys2Proof

/-- START, the sentinel at offset 0 of a frame (R6, R57). -/
def START : Byte := 0x7E
/-- VERSION, a protocol constant (R6, R57). -/
def VERSION : Byte := 0xFF
/-- LENGTH, a protocol constant, the same in both formats (R6, R57, R58). -/
def LENGTH : Byte := 0x06
/-- ACK_REQ, "feedback requested" (R6, R57). -/
def ACK_REQ : Byte := 0x01
/-- END, the sentinel at the last offset of a frame (R6, R57). -/
def END : Byte := 0xEF
/-- OP_DONE (R6, R65). -/
def OP_DONE : Byte := 0x3D
/-- OP_READY (R6, R65). -/
def OP_READY : Byte := 0x3F
/-- OP_ERROR (R6, R65). -/
def OP_ERROR : Byte := 0x40
/-- OP_OK (R6, R65). -/
def OP_OK : Byte := 0x41
/-- BUF_SIZE, the size of RXB and of TXB (R6, D4). -/
def BUF_SIZE : Nat := 10
/-- CUR_BITS, the width of CUR (R6, R17, D5). -/
abbrev CUR_BITS : Nat := 4

/-- Why a transaction is no instruction. -/
inductive DecodeError
  /-- The port takes another number of bytes (R63, R70). -/
  | wrongLength
  /-- An outbound prefix whose START, VERSION, LENGTH or ACK_FLAG is not the fixed byte (R63). -/
  | notAnOutboundPrefix
  /-- An inbound prefix that does not begin with START (R63). -/
  | notAnInboundPrefix
  /-- No named command or query has this opcode; `SEND` still encodes it (R178). -/
  | unlistedCommand
  /-- No inbound row has this opcode; a frame that carries it is ignored (R119). -/
  | unlistedResponse
  /-- A bit above the port's operand word is set (R70). -/
  | operandTooWide
  deriving DecidableEq, Repr

/-- The named command or query with this opcode: the tables of R64 and R66. -/
def commandOf (op dh dl : Byte) : Option Instr :=
  match op.toNat with
  | 0x01 => some (.playNext dh dl)
  | 0x02 => some (.playPrevious dh dl)
  | 0x03 => some (.playTrack dh dl)
  | 0x04 => some (.volumeUp dh dl)
  | 0x05 => some (.volumeDown dh dl)
  | 0x06 => some (.setVolume dh dl)
  | 0x07 => some (.setEqualizer dh dl)
  | 0x08 => some (.repeatTrack dh dl)
  | 0x09 => some (.setSource dh dl)
  | 0x0A => some (.sleep dh dl)
  | 0x0B => some (.wake dh dl)
  | 0x0C => some (.reset dh dl)
  | 0x0D => some (.play dh dl)
  | 0x0E => some (.pause dh dl)
  | 0x0F => some (.playFolder dh dl)
  | 0x10 => some (.setDacGain dh dl)
  | 0x11 => some (.repeatAll dh dl)
  | 0x12 => some (.playMp3Folder dh dl)
  | 0x13 => some (.playAdvertFolder dh dl)
  | 0x14 => some (.play3000Folder dh dl)
  | 0x15 => some (.stopAdvertFolder dh dl)
  | 0x16 => some (.stop dh dl)
  | 0x17 => some (.repeatFolder dh dl)
  | 0x18 => some (.randomAll dh dl)
  | 0x19 => some (.loopTrack dh dl)
  | 0x1A => some (.enableDac dh dl)
  | 0x42 => some (.query42 dh dl)
  | 0x43 => some (.getVolume dh dl)
  | 0x44 => some (.query44 dh dl)
  | 0x45 => some (.query45 dh dl)
  | 0x46 => some (.query46 dh dl)
  | 0x47 => some (.query47 dh dl)
  | 0x48 => some (.query48 dh dl)
  | 0x49 => some (.query49 dh dl)
  | 0x4A => some (.query4A dh dl)
  | 0x4B => some (.query4B dh dl)
  | 0x4C => some (.query4C dh dl)
  | 0x4D => some (.query4D dh dl)
  | 0x4E => some (.query4E dh dl)
  | 0x4F => some (.query4F dh dl)
  | _ => none

/-- The inbound row of a query's answer with this opcode: the table of R66. -/
def queryAnswerOf (op : Byte) (f : RxFields) : Option Instr :=
  match op.toNat with
  | 0x42 => some (.query42Rx f)
  | 0x43 => some (.getVolumeRx f)
  | 0x44 => some (.query44Rx f)
  | 0x45 => some (.query45Rx f)
  | 0x46 => some (.query46Rx f)
  | 0x47 => some (.query47Rx f)
  | 0x48 => some (.query48Rx f)
  | 0x49 => some (.query49Rx f)
  | 0x4A => some (.query4ARx f)
  | 0x4B => some (.query4BRx f)
  | 0x4C => some (.query4CRx f)
  | 0x4D => some (.query4DRx f)
  | 0x4E => some (.query4ERx f)
  | 0x4F => some (.query4FRx f)
  | _ => none

/-- The inbound row with this opcode: the status frames of R65, then the answers of R66. -/
def responseOf (op : Byte) (f : RxFields) : Option Instr :=
  if op = OP_DONE then some (.done f)
  else if op = OP_READY then some (.ready f)
  else if op = OP_ERROR then some (.error f)
  else if op = OP_OK then some (.okAck f)
  else queryAnswerOf op f

/-- SETMODE's operand word: 0 SYNC, 1 ASYNC (R70, R181). -/
def modeOf (b : Byte) : Option Mode :=
  match b.toNat with
  | 0 => some .sync
  | 1 => some .async
  | _ => none

/-- An outbound prefix: START, VERSION, LENGTH and ACK_FLAG at their fixed values, OPCODE a listed one (R63: mask
0xFFFFFFFFFF0000). -/
def decodeCommand (b0 b1 b2 op b4 dh dl : Byte) : Except DecodeError Instr :=
  if b0 = START ∧ b1 = VERSION ∧ b2 = LENGTH ∧ b4 = ACK_REQ then
    match commandOf op dh dl with
    | some i => .ok i
    | none => .error .unlistedCommand
  else .error .notAnOutboundPrefix

/-- An inbound prefix: START at offset 0 and OPCODE at offset 3, nothing else is examined (R63: mask 0xFF0000FF000000). -/
def decodeInbound (b0 b1 b2 op b4 dh dl : Byte) : Except DecodeError Instr :=
  if b0 = START then
    match responseOf op ⟨b1, b2, b4, dh, dl⟩ with
    | some i => .ok i
    | none => .error .unlistedResponse
  else .error .notAnInboundPrefix

/-- The instruction a transaction is, or the name of the reason it is none. -/
def decode (t : Txn) : Except DecodeError Instr :=
  match t.port, t.bytes with
  | .command, [b0, b1, b2, op, b4, dh, dl] => decodeCommand b0 b1 b2 op b4 dh dl
  | .inbound, [b0, b1, b2, op, b4, dh, dl] => decodeInbound b0 b1 b2 op b4 dh dl
  | .cksum, [b1, b2, b3, b4, b5, b6] => .ok (.cksum b1 b2 b3 b4 b5 b6)
  | .encode, [op, dh, dl] => .ok (.encode op dh dl)
  | .send, [op, dh, dl] => .ok (.send op dh dl)
  | .rxbyte, [b] => .ok (.rxbyte b)
  | .query, [e] => .ok (.query e)
  | .setmode, [b] =>
    match modeOf b with
    | some m => .ok (.setmode m)
    | none => .error .operandTooWide
  | .clrstat, [b] => if b.toNat < 32 then .ok (.clrstat (b.setWidth 5)) else .error .operandTooWide
  | .rdstat, [b] => if b.toNat < 8 then .ok (.rdstat (b.setWidth 3)) else .error .operandTooWide
  | _, _ => .error .wrongLength

/-- The 7-byte prefix of an outbound frame (R56, R58: the same in both formats). -/
def commandTxn (op dh dl : Byte) : Txn := ⟨.command, [START, VERSION, LENGTH, op, ACK_REQ, dh, dl]⟩

/-- The 7-byte prefix of an inbound frame (R63). -/
def responseTxn (op : Byte) (f : RxFields) : Txn := ⟨.inbound, [START, f.version, f.length, op, f.ackFlag, f.dh, f.dl]⟩

/-- The transaction of an instruction, written from the tables R64 to R66 and R70. -/
def encode : Instr → Txn
  | .playNext dh dl => commandTxn 0x01 dh dl
  | .playPrevious dh dl => commandTxn 0x02 dh dl
  | .playTrack dh dl => commandTxn 0x03 dh dl
  | .volumeUp dh dl => commandTxn 0x04 dh dl
  | .volumeDown dh dl => commandTxn 0x05 dh dl
  | .setVolume dh dl => commandTxn 0x06 dh dl
  | .setEqualizer dh dl => commandTxn 0x07 dh dl
  | .repeatTrack dh dl => commandTxn 0x08 dh dl
  | .setSource dh dl => commandTxn 0x09 dh dl
  | .sleep dh dl => commandTxn 0x0A dh dl
  | .wake dh dl => commandTxn 0x0B dh dl
  | .reset dh dl => commandTxn 0x0C dh dl
  | .play dh dl => commandTxn 0x0D dh dl
  | .pause dh dl => commandTxn 0x0E dh dl
  | .playFolder dh dl => commandTxn 0x0F dh dl
  | .setDacGain dh dl => commandTxn 0x10 dh dl
  | .repeatAll dh dl => commandTxn 0x11 dh dl
  | .playMp3Folder dh dl => commandTxn 0x12 dh dl
  | .playAdvertFolder dh dl => commandTxn 0x13 dh dl
  | .play3000Folder dh dl => commandTxn 0x14 dh dl
  | .stopAdvertFolder dh dl => commandTxn 0x15 dh dl
  | .stop dh dl => commandTxn 0x16 dh dl
  | .repeatFolder dh dl => commandTxn 0x17 dh dl
  | .randomAll dh dl => commandTxn 0x18 dh dl
  | .loopTrack dh dl => commandTxn 0x19 dh dl
  | .enableDac dh dl => commandTxn 0x1A dh dl
  | .query42 dh dl => commandTxn 0x42 dh dl
  | .getVolume dh dl => commandTxn 0x43 dh dl
  | .query44 dh dl => commandTxn 0x44 dh dl
  | .query45 dh dl => commandTxn 0x45 dh dl
  | .query46 dh dl => commandTxn 0x46 dh dl
  | .query47 dh dl => commandTxn 0x47 dh dl
  | .query48 dh dl => commandTxn 0x48 dh dl
  | .query49 dh dl => commandTxn 0x49 dh dl
  | .query4A dh dl => commandTxn 0x4A dh dl
  | .query4B dh dl => commandTxn 0x4B dh dl
  | .query4C dh dl => commandTxn 0x4C dh dl
  | .query4D dh dl => commandTxn 0x4D dh dl
  | .query4E dh dl => commandTxn 0x4E dh dl
  | .query4F dh dl => commandTxn 0x4F dh dl
  | .query42Rx f => responseTxn 0x42 f
  | .getVolumeRx f => responseTxn 0x43 f
  | .query44Rx f => responseTxn 0x44 f
  | .query45Rx f => responseTxn 0x45 f
  | .query46Rx f => responseTxn 0x46 f
  | .query47Rx f => responseTxn 0x47 f
  | .query48Rx f => responseTxn 0x48 f
  | .query49Rx f => responseTxn 0x49 f
  | .query4ARx f => responseTxn 0x4A f
  | .query4BRx f => responseTxn 0x4B f
  | .query4CRx f => responseTxn 0x4C f
  | .query4DRx f => responseTxn 0x4D f
  | .query4ERx f => responseTxn 0x4E f
  | .query4FRx f => responseTxn 0x4F f
  | .done f => responseTxn OP_DONE f
  | .ready f => responseTxn OP_READY f
  | .error f => responseTxn OP_ERROR f
  | .okAck f => responseTxn OP_OK f
  | .cksum b1 b2 b3 b4 b5 b6 => ⟨.cksum, [b1, b2, b3, b4, b5, b6]⟩
  | .encode op dh dl => ⟨.encode, [op, dh, dl]⟩
  | .send op dh dl => ⟨.send, [op, dh, dl]⟩
  | .rxbyte b => ⟨.rxbyte, [b]⟩
  | .query e => ⟨.query, [e]⟩
  | .setmode .sync => ⟨.setmode, [0x00]⟩
  | .setmode .async => ⟨.setmode, [0x01]⟩
  | .clrstat mask => ⟨.clrstat, [mask.setWidth 8]⟩
  | .rdstat f => ⟨.rdstat, [f.setWidth 8]⟩

/-- The `n` bytes of a table number, the most significant first (R63, R70). -/
def tableBytes : Nat → Nat → List Byte
  | 0, _ => []
  | n + 1, w => BitVec.ofNat 8 (w / 256 ^ n) :: tableBytes n w

/-- The transaction the number `w` of `nbits` bits stands for. The table gives port words no opcode bits, so a width that
several ports share names one of them: 24 bits SEND (not ENCODE), 8 bits RXBYTE (not QUERY, SETMODE, CLRSTAT, RDSTAT, which the
widths 1, 5 and 3 of R70 name where they are given). A 56-bit prefix that fits an outbound row is that row, any other is an
inbound prefix (log 13). -/
def tableTxn (nbits w : Nat) : Txn :=
  match nbits with
  | 56 =>
    match decode ⟨.command, tableBytes 7 w⟩ with
    | .ok _ => ⟨.command, tableBytes 7 w⟩
    | .error _ => ⟨.inbound, tableBytes 7 w⟩
  | 48 => ⟨.cksum, tableBytes 6 w⟩
  | 24 => ⟨.send, tableBytes 3 w⟩
  | 8 => ⟨.rxbyte, tableBytes 1 w⟩
  | 5 => ⟨.clrstat, tableBytes 1 w⟩
  | 3 => ⟨.rdstat, tableBytes 1 w⟩
  | 1 => ⟨.setmode, tableBytes 1 w⟩
  | _ => ⟨.command, []⟩

/-- The instruction the decoder reads from a table row's number. -/
def decodeTableWord (nbits w : Nat) : Option Instr :=
  match decode (tableTxn nbits w) with
  | .ok i => some i
  | .error _ => none

end Sys2Proof
end

