-- ==== Sys2Proof/Machine/State.lean ====
section
/-! DEFINITION. The state of UFE (10_state.md), the reasons a step can stop, and the state after reset (R32, R213). -/

namespace Sys2Proof.Machine

/-- A byte memory: index and byte, indexes strictly rising; an unlisted index holds no value (R32: "a model gives each byte no
value", log 5). -/
abbrev Memory := List Host.Cell

/-- The Decoded Status, "the only persistent state the core owns" (R19 to R24). -/
structure Status where
  /-- READY (R19). -/
  ready : Bool
  /-- DONE (R20). -/
  done : Bool
  /-- OK (R21). -/
  ok : Bool
  /-- ERRCODE (R22). -/
  errcode : Byte
  /-- SOURCE (R23). -/
  source : Byte
  deriving DecidableEq, Repr

/-- What an operation returns to FG (R75, R83, R124, R185). -/
inductive Returned
  | checksum (c : Option Word16)
  | frame (bytes : List Byte)
  | answer (valid : Bool) (value : Word16)
  | field (value : Byte)
  deriving DecidableEq, Repr

/-- What crosses the block's boundary, in the order of the run: a byte taken by the Byte Sink (R31, R44, R89), a request
`Delay(ms)` (R90), a result returned to FG (log 17). -/
inductive Event
  | sent (b : Byte)
  | delay (ms : Nat)
  | returned (r : Returned)
  deriving DecidableEq, Repr

/-- The internal step of SEND (R87) or QUERY (R124) that FG takes next (R48; log 7). -/
inductive FgPoint
  /-- FG is between operations. -/
  | idle
  /-- Line 2 of SEND, `f <- ENCODE(op, dh, dl)`, is next (R87). -/
  | encodeCall (op dh dl : Byte)
  /-- Line 3 of SEND: the write of `b` to `TXB[i]` is next, then those of `rest` (R88). -/
  | fill (i : Nat) (b : Byte) (rest : List Byte)
  /-- Line 4 of SEND: FG is in `send`, and the sink takes `TXB[i]` next (R44, R89). -/
  | sendCall (i : Nat)
  /-- Line 5 of SEND, the request `delay(SETTLE_MS)`, is next (R90). -/
  | delayCall
  /-- DLY has been asked and has not answered (R90, R209). -/
  | delayWait
  /-- Line 6 of SEND is next (R91). -/
  | sendDone
  /-- QUERY waits in `recv` (R125, R126); `n` bytes are stored under `blind`, 0 under `resync`. -/
  | recv (n : Nat)
  deriving DecidableEq, Repr

/-- Whose transition is next (R48; log 9). -/
inductive Turn
  /-- FG goes on until it blocks or its operation is complete; between operations it issues the next one. -/
  | fg
  /-- FG takes one internal step. -/
  | fgInternal
  /-- IRQ takes the oldest waiting byte (R200). -/
  | irq
  /-- ENV delivers a byte, which waits until an agent takes it (R38, R198). -/
  | arrive (b : Byte)
  /-- ENV: the Byte Sink becomes ready or not (R207). -/
  | sink (ready : Bool)
  /-- DLY answers, or does not (R209). -/
  | dly (ready : Bool)
  /-- Power-up of the host processor (R213). -/
  | powerUp
  deriving DecidableEq, Repr

/-- FG's program and the environment, an oracle in the spec (R13, R31, R229). -/
structure Env where
  ops : List Txn
  inbound : List Byte
  sinkReady : Bool
  delayReady : Bool
  turns : List Turn
  deriving DecidableEq, Repr

/-- The machine. `params`, `fgAt`, `env` and `trace` are not registers of the block: see INVENTORY.md. -/
structure State where
  /-- VARIANT, SYNC_FRAMING, SRC_RULE: configuration, written by no step (R7, R14, R215). -/
  params : Params
  /-- TXB, 10 bytes (R15). -/
  txb : Memory
  /-- RXB, 10 bytes (R16). -/
  rxb : Memory
  /-- CUR, CUR_BITS bits (R17). -/
  cur : BitVec CUR_BITS
  /-- READY, DONE, OK, ERRCODE, SOURCE (R19 to R24). -/
  status : Status
  /-- MODE (R25). -/
  mode : Mode
  /-- TXBUSY (R26). -/
  txbusy : Bool
  /-- QACTIVE (R27). -/
  qactive : Bool
  /-- QEXP, with a meaning only while QACTIVE = 1 (R27). -/
  qexp : Byte
  /-- Where FG stands inside its operation (R48). -/
  fgAt : FgPoint
  /-- FG's remaining operations and the environment (R31, R229). -/
  env : Env
  /-- The run's record (R31, R90). -/
  trace : List Event
  deriving DecidableEq, Repr

/-- Why the machine stops with a fault. UFE raises none (R189): both stand for an access R36 and R33 (c) exclude, and no state
that meets the invariant reaches one. -/
inductive Fault
  /-- An access to RXB or TXB at index 10 or more, which does not exist (R36). Raised by RXBYTE, `blind` QUERY and SEND's
  fill in states no run reaches. Safe. -/
  | noSuchIndex
  /-- A read of a buffer byte that has no value (R32, R33). Raised by `send`, DISPATCH and QUERY's result in states no run
  reaches. Safe. -/
  | noValue
  deriving DecidableEq, Repr

/-- Why an operation is refused. None changes the state. -/
inductive Refusal
  /-- Raised by exec's arm of an instruction without a meaning; no arm is one. Safe. -/
  | notModelled (mnemonic : String)
  /-- QUERY while MODE = ASYNC (R131, R195). Safe. -/
  | queryInAsyncMode
  /-- SEND, a command or an outbound query while TXBUSY = 1 (R93, R195). Safe. -/
  | sendWhileBusy
  /-- RDSTAT with field index 5, 6 or 7 (R185, R195). Safe. -/
  | badStatusField
  /-- SEND, QUERY or SETMODE issued inside a SEND or QUERY where none of the above applies: FG runs one operation at a time,
  "each to completion" (R13; R181 "require"; log 14). Raised in no run: FG issues only between operations. Safe. -/
  | foregroundBusy
  /-- Raised where FG's list holds an RXBYTE or an inbound frame: R13 and R204 give FG neither (log 21). Safe. -/
  | notForeground
  /-- Raised by FG's issue of a transaction that is no instruction (log 15). Safe. -/
  | undecodable (e : DecodeError)
  deriving DecidableEq, Repr

/-- The outcome of a step of this machine. -/
abbrev Answer := Host.Outcome State Fault Refusal

/-- The Decoded Status after reset (R32). -/
def Status.reset : Status := { ready := false, done := false, ok := false, errcode := 0x00, source := 0x00 }

/-- The configuration State.reset has: the defaults of R6 and, for VARIANT, STD (log 1, log 2). -/
def Params.initial : Params := { variant := .std, framing := .resync, srcRule := [] }

/-- No operation to issue, nothing arrived, the primitives ready (log 9, log 10, log 16). -/
def Env.initial : Env := { ops := [], inbound := [], sinkReady := true, delayReady := true, turns := [] }

/-- The machine after power-up under a given configuration and environment (R32, R213); QEXP is "unspecified" there and 0 here
(log 6). -/
def State.afterPowerUp (p : Params) (e : Env) (trace : List Event) : State :=
  { params := p, txb := [], rxb := [], cur := 0, status := Status.reset, mode := .sync, txbusy := false, qactive := false,
    qexp := 0x00, fgAt := .idle, env := e, trace := trace }

/-- The machine right after reset (R32, R213). -/
def State.reset : State := State.afterPowerUp Params.initial Env.initial []

end Sys2Proof.Machine
end

