-- ==== Sys2Proof/Machine/Flags.lean ====
section
/-! DEFINITION. What writes and reads the Decoded Status: DISPATCH (R114 to R122), CLRSTAT (R183), RDSTAT (R185). -/

namespace Sys2Proof.Machine

/-- SRC_RULE applied to a frame: the first table row for the triple, none if there is none (R120). -/
def srcRuleAt : SrcRule → Byte → Byte → Byte → Option Byte
  | [], _, _, _ => none
  | ((o, h, l), v) :: rest, op, dh, dl => if o = op ∧ h = dh ∧ l = dl then some v else srcRuleAt rest op dh dl

/-- The first `match` of DISPATCH: one field per frame, set only (R114 to R119, R122). -/
def statusByOpcode (op dl : Byte) (st : Status) : Status :=
  if op = OP_DONE then { st with done := true }
  else if op = OP_READY then { st with ready := true }
  else if op = OP_ERROR then { st with errcode := dl }
  else if op = OP_OK then { st with ok := true }
  else st

/-- The second `match` of DISPATCH: SOURCE, through SRC_RULE only (R114, R120). -/
def statusBySource (rule : SrcRule) (op dh dl : Byte) (st : Status) : Status :=
  match srcRuleAt rule op dh dl with
  | some v => { st with source := v }
  | none => st

/-- DISPATCH's whole effect on the status (R114). -/
def dispatchStatus (rule : SrcRule) (op dh dl : Byte) (st : Status) : Status :=
  statusBySource rule op dh dl (statusByOpcode op dl st)

/-- CLRSTAT's effect: the fields whose mask bit is 1 become 0 (R183). -/
def clearStatus (mask : BitVec 5) (st : Status) : Status :=
  { ready := st.ready && !mask.getLsbD 0
    done := st.done && !mask.getLsbD 1
    ok := st.ok && !mask.getLsbD 2
    errcode := if mask.getLsbD 3 then 0x00 else st.errcode
    source := if mask.getLsbD 4 then 0x00 else st.source }

/-- A flag zero-extended to 8 bits: 0x00 or 0x01 (R185). -/
def flagByte (b : Bool) : Byte := if b then 0x01 else 0x00

/-- The field RDSTAT reads, none for the indexes 5 to 7 (R185). -/
def statusField (f : BitVec 3) (st : Status) : Option Byte :=
  match f.toNat with
  | 0 => some (flagByte st.ready)
  | 1 => some (flagByte st.done)
  | 2 => some (flagByte st.ok)
  | 3 => some st.errcode
  | 4 => some st.source
  | _ => none

end Sys2Proof.Machine
end

