-- ==== Sys2Proof/Machine/Operands.lean ====
section
/-! DEFINITION. Operand forms: how 16-bit values and their two bytes correspond (R39, R40, R61, R62), the two placements of a
command's parameter (R61, R72, R162), and the numbers of the enumerations (R14, R25). -/

namespace Sys2Proof.Machine

/-- Bits 15 to 8 (R61, R62). -/
def highByte (n : Word16) : Byte := n.extractLsb' 8 8

/-- Bits 7 to 0 (R61, R62). -/
def lowByte (n : Word16) : Byte := n.extractLsb' 0 8

/-- `zext_16(hi) * 256 + zext_16(lo)`, unsigned, never sign-extended and never scaled (R40, R61). -/
def dataWord (hi lo : Byte) : Word16 := hi.setWidth 16 * 256 + lo.setWidth 16

/-- The form `<name> n`: a 16-bit parameter, high byte first (R61, R72). -/
def placeWord (n : Word16) : Byte × Byte := (highByte n, lowByte n)

/-- The form `<name> p`: a single-byte parameter in DATA_LOW, DATA_HIGH = 0 (R61, R72). -/
def placeByte (p : Byte) : Byte × Byte := (0x00, p)

/-- VARIANT as a number (R14). -/
def variantCode : Variant → BitVec 2
  | .std => 0
  | .inv => 1
  | .slow => 2
  | .none => 3

/-- MODE as a bit (R25). -/
def modeBit : Mode → BitVec 1
  | .sync => 0
  | .async => 1

end Sys2Proof.Machine
end

