-- ==== Sys2Proof/Machine/Ops.lean ====
section
/-! DEFINITION. The shared operations: byte memories, the derived parameters HAS_CK and FRAME_SIZE, named updates of State, the
Assembler's step (R97), the two readings of a completed frame (R114, R127, R128) and the receive interrupt (R200). -/

namespace Sys2Proof.Machine

/-- HAS_CK: VARIANT ≠ NONE (R6, R14). -/
def hasCk : Variant → Bool
  | .std => true
  | .inv => true
  | .slow => true
  | .none => false

/-- FRAME_SIZE: 10 if HAS_CK else 8 (R6, R59, R106). -/
def frameSize (v : Variant) : Nat := if hasCk v then 10 else 8

/-- The byte at an index, if it has a value. -/
def Memory.read : Memory → Nat → Option Byte
  | [], _ => none
  | (a, b) :: m, i => if a = i then some b else Memory.read m i

/-- The memory with one byte written, in canonical form again. -/
def Memory.write : Memory → Nat → Byte → Memory
  | [], i, v => [(i, v)]
  | (a, b) :: m, i, v =>
    if i < a then (i, v) :: (a, b) :: m
    else if i = a then (i, v) :: m
    else (a, b) :: Memory.write m i v

/-- Consecutive bytes written from an index upwards. -/
def Memory.writeFrom : Memory → Nat → List Byte → Memory
  | m, _, [] => m
  | m, i, v :: vs => Memory.writeFrom (Memory.write m i v) (i + 1) vs

/-- `n` consecutive bytes read from an index upwards; none if one has no value. -/
def Memory.readFrom (m : Memory) : Nat → Nat → Option (List Byte)
  | _, 0 => some []
  | i, n + 1 =>
    match Memory.read m i, Memory.readFrom m (i + 1) n with
    | some b, some bs => some (b :: bs)
    | _, _ => none

/-- The indexes are strictly rising from `lo` and exist. -/
def Memory.wfFrom (lo : Nat) : Memory → Bool
  | [] => true
  | (a, _) :: m => decide (lo ≤ a) && decide (a < BUF_SIZE) && Memory.wfFrom (a + 1) m

/-- The canonical form of a buffer's memory. -/
def Memory.wf (m : Memory) : Bool := Memory.wfFrom 0 m

/-- Named updates of State. -/
def State.setTxb (s : State) (m : Memory) : State := { s with txb := m }
def State.setRxb (s : State) (m : Memory) : State := { s with rxb := m }
def State.setCur (s : State) (c : BitVec CUR_BITS) : State := { s with cur := c }
def State.setStatus (s : State) (st : Status) : State := { s with status := st }
def State.setMode (s : State) (m : Mode) : State := { s with mode := m }
def State.setTxbusy (s : State) (b : Bool) : State := { s with txbusy := b }
def State.setQactive (s : State) (b : Bool) : State := { s with qactive := b }
def State.setQexp (s : State) (e : Byte) : State := { s with qexp := e }
def State.setFgAt (s : State) (p : FgPoint) : State := { s with fgAt := p }
def State.setEnv (s : State) (e : Env) : State := { s with env := e }
/-- Appends an event to the run's record. -/
def State.record (s : State) (e : Event) : State := { s with trace := s.trace ++ [e] }

/-- One operation after another: the second runs on the next state of the first. -/
def andThen (a : Answer) (k : State → Answer) : Answer :=
  match a with
  | .next s => k s
  | .fault f => .fault f
  | .refused r => .refused r

/-- A use of the completed frame: OPCODE, DATA_HIGH and DATA_LOW, the only bytes read (R43, R114, R121, R127). -/
def withFrame (k : Byte → Byte → Byte → State → State) (s : State) : Answer :=
  match s.rxb.read 3, s.rxb.read 5, s.rxb.read 6 with
  | some op, some dh, some dl => .next (k op dh dl s)
  | _, _, _ => .fault .noValue

/-- DISPATCH on OPCODE, DATA_HIGH, DATA_LOW (R114): it writes the Decoded Status and nothing else. -/
def dispatch (op dh dl : Byte) (s : State) : State := s.setStatus (dispatchStatus s.params.srcRule op dh dl s.status)

/-- QUERY's end (R124, R127, R128): the result is returned, QACTIVE becomes 0, FG is between operations again. -/
def finishQuery (op dh dl : Byte) (s : State) : State :=
  (((s.record (.returned (if op = s.qexp then .answer true (dataWord dh dl) else .answer false 0x0000))).setQactive
    false).setFgAt .idle)

/-- The Response Interpreter on a completed frame, in the mode that is active (R113): DISPATCH in ASYNC mode, the active
QUERY's result in SYNC mode; in SYNC mode without a QUERY no agent reads a frame (R38, R98, log 12). -/
def interpret (op dh dl : Byte) (s : State) : State :=
  match s.mode with
  | .async => dispatch op dh dl s
  | .sync => if s.qactive then finishQuery op dh dl s else s

/-- The store and advance of RXBYTE: `RXB[CUR] <- b; CUR <- CUR + 1` (R100). -/
def storeAndAdvance (b : Byte) (s : State) : State := (s.setRxb (s.rxb.write s.cur.toNat b)).setCur (s.cur + 1)

/-- RXBYTE(b, on_complete), one atomic transition (R97): discard (R99), store and advance (R100), completion with
`on_complete` before CUR returns to 0 (R101). -/
def assemble (onComplete : State → Answer) (b : Byte) (s : State) : Answer :=
  if s.cur = 0 ∧ b ≠ START then .next s
  else if s.cur.toNat < BUF_SIZE then
    if (storeAndAdvance b s).cur.toNat = frameSize s.params.variant then
      andThen (onComplete (storeAndAdvance b s)) fun t => .next (t.setCur 0)
    else .next (storeAndAdvance b s)
  else .fault .noSuchIndex

/-- The receive interrupt's handler: RXBYTE(b, DISPATCH) as one atomic step (R200). Entry saves no state and changes no mode or
mask; the return restores nothing (R201). -/
def receiveInterrupt (b : Byte) (s : State) : Answer := assemble (withFrame dispatch) b s

/-- A byte that arrives while no handler takes it waits with ENV, in arrival order (R38, R198; log 11). -/
def holdByte (b : Byte) (s : State) : State := s.setEnv { s.env with inbound := s.env.inbound ++ [b] }

end Sys2Proof.Machine
end

