-- ==== Sys2Proof/Machine/Assembler.lean ====
section
/-! DEFINITION. Frame Assembler (42_frame_assembler.md): RXBYTE. -/

namespace Sys2Proof.Machine

/-- RXBYTE, the inbound byte `b` (R97, R98): in ASYNC mode the receive interrupt's handler runs on it; in SYNC mode no IRQ step
occurs and the byte waits for a `recv` (R38, R198, log 11). In a run only IRQ's turn executes it, on the oldest waiting byte, in
arrival order (R38, R199; `irqTurn`). On a state in which other bytes wait, exec of it handles `b` ahead of them: that `b` counts
there as the byte just taken, older than those that wait, is the model's choice (DESIGN CHOICE, log 21). -/
def execRxbyte (b : Byte) (s : State) : Answer :=
  match s.mode with
  | .async => receiveInterrupt b s
  | .sync => .next (holdByte b s)

end Sys2Proof.Machine
end

