-- ==== Sys2Proof/Machine/Checksum.lean ====
section
/-! DEFINITION. Checksum Policy (40_checksum.md): the function (R75 to R79) and the operation CKSUM. -/

namespace Sys2Proof.Machine

/-- The sum of the six bytes, a natural number 0 to 1530 (R75). -/
def sumOf (b1 b2 b3 b4 b5 b6 : Byte) : Nat := b1.toNat + b2.toNat + b3.toNat + b4.toNat + b5.toNat + b6.toNat

/-- CKSUM for a sum `s`: STD and SLOW `(0 - s) mod 65536` (R76, R77); INV `(0xFFFF - s + 1) mod 65536`, a formula of its own
(R78, R80); NONE not applicable (R79). -/
def checksumOf (v : Variant) (s : Nat) : Option Word16 :=
  match v with
  | .std => some (0 - BitVec.ofNat 16 s)
  | .slow => some (0 - BitVec.ofNat 16 s)
  | .inv => some (BitVec.ofNat 16 (0xFFFF - s + 1))
  | .none => none

/-- CKSUM (R75): the result goes to FG; no state is read or written. -/
def execCksum (b1 b2 b3 b4 b5 b6 : Byte) (s : State) : Answer :=
  .next (s.record (.returned (.checksum (checksumOf s.params.variant (sumOf b1 b2 b3 b4 b5 b6)))))

end Sys2Proof.Machine
end

