-- ==== Sys2Proof/Machine/Foreground.lean ====
section
/-! DEFINITION. FG's two operations that take several internal steps (R44, R48): SEND (R87) and QUERY (R124), one transition per
definition clause, and their run until FG blocks or the operation is complete. -/

namespace Sys2Proof.Machine

/-- ENCODE: the frame of `op, dh, dl` under a variant (R83, R85, R86). -/
def encodeFrame (v : Variant) (op dh dl : Byte) : List Byte :=
  match checksumOf v (sumOf VERSION LENGTH op ACK_REQ dh dl) with
  | some ck => [START, VERSION, LENGTH, op, ACK_REQ, dh, dl, highByte ck, lowByte ck, END]
  | none => [START, VERSION, LENGTH, op, ACK_REQ, dh, dl, END]

/-- Where FG stands when the bytes of a list are to be written to TXB from index `i` on. -/
def fillPoint (i : Nat) : List Byte → FgPoint
  | [] => .sendCall 0
  | b :: rest => .fill i b rest

/-- Line 1 of SEND: TXBUSY <- 1 (R87). -/
def sendBegin (op dh dl : Byte) (s : State) : State := (s.setTxbusy true).setFgAt (.encodeCall op dh dl)

/-- Line 2 of SEND: the frame `f` of `n` bytes (R87). -/
def encodeStep (op dh dl : Byte) (s : State) : State := s.setFgAt (fillPoint 0 (encodeFrame s.params.variant op dh dl))

/-- One pass of line 3 of SEND: `TXB[i] <- f[i]` (R48, R88). -/
def fillStep (i : Nat) (b : Byte) (rest : List Byte) (s : State) : Answer :=
  if i < BUF_SIZE then .next ((s.setTxb (s.txb.write i b)).setFgAt (fillPoint (i + 1) rest))
  else .fault .noSuchIndex

/-- Where FG stands when the sink has taken `i` bytes of the frame: in `send` until it has taken all of them; behind it, at the
delay request under SLOW, at completion otherwise (R87, R89, R90). -/
def sendPoint (v : Variant) (i : Nat) : FgPoint :=
  if i < frameSize v then .sendCall i else if v = .slow then .delayCall else .sendDone

/-- One byte of line 4 of SEND, `send(TXB[0 .. n-1])`: the sink takes `TXB[i]`, in ascending order, where it is ready, else FG
is blocked (R89, R92). An IRQ step may fall between two bytes (R44; log 7). -/
def sendCallStep (i : Nat) (s : State) : Answer :=
  if s.env.sinkReady then
    match s.txb.read i with
    | some b => .next ((s.record (.sent b)).setFgAt (sendPoint s.params.variant (i + 1)))
    | none => .fault .noValue
  else .next s

/-- `recv()` and the handling of its byte inside QUERY: under `resync` one RXBYTE with QUERY's result as `on_complete` (R125),
under `blind` a store at the next index, no CUR and no START test (R126). With no byte there, `recv` blocks (R130). -/
def recvStep (n : Nat) (s : State) : Answer :=
  match s.env.inbound with
  | [] => .next s
  | b :: rest =>
    match s.params.framing with
    | .resync => assemble (withFrame finishQuery) b (s.setEnv { s.env with inbound := rest })
    | .blind =>
      if n < BUF_SIZE then
        if n + 1 = frameSize s.params.variant then
          withFrame finishQuery (((s.setEnv { s.env with inbound := rest }).setRxb (s.rxb.write n b)).setFgAt (.recv (n + 1)))
        else .next (((s.setEnv { s.env with inbound := rest }).setRxb (s.rxb.write n b)).setFgAt (.recv (n + 1)))
      else .fault .noSuchIndex

/-- One internal step of the operation FG is in; blocked or between operations FG stays where it is (R48, R194). -/
def fgStep (s : State) : Answer :=
  match s.fgAt with
  | .idle => .next s
  | .encodeCall op dh dl => .next (encodeStep op dh dl s)
  | .fill i b rest => fillStep i b rest s
  | .sendCall i => sendCallStep i s
  | .delayCall => .next ((s.record (.delay Config.settleMs)).setFgAt .delayWait)
  | .delayWait => if s.env.delayReady then .next (s.setFgAt .sendDone) else .next s
  | .sendDone => .next ((s.setTxbusy false).setFgAt .idle)
  | .recv n => recvStep n s

/-- `fuel` internal steps of FG. -/
def fgRun : Nat → State → Answer
  | 0, s => .next s
  | fuel + 1, s => andThen (fgStep s) (fgRun fuel)

/-- FG goes on until it blocks or its operation is complete: SEND has at most 2 * BUF_SIZE + 4 internal steps after its first
(log 7), QUERY one for each byte that waits. -/
def fgContinue (s : State) : Answer := fgRun (2 * BUF_SIZE + 4 + s.env.inbound.length) s

/-- The first transition of SEND (R87): refused while TXBUSY = 1 (R93) and where FG is inside a QUERY (R13, log 14). -/
def sendStart (op dh dl : Byte) (s : State) : Answer :=
  if s.txbusy then .refused .sendWhileBusy
  else if s.fgAt = .idle then .next (sendBegin op dh dl s)
  else .refused .foregroundBusy

/-- SEND (R87), until it is complete or blocked (log 8). -/
def sendFrame (op dh dl : Byte) (s : State) : Answer := andThen (sendStart op dh dl s) fgContinue

/-- The first line of QUERY: QACTIVE <- 1, QEXP <- e (R124). -/
def queryBegin (e : Byte) (s : State) : State := ((s.setQactive true).setQexp e).setFgAt (.recv 0)

/-- The first transition of QUERY (R124): refused while MODE = ASYNC (R131) and where FG is inside another operation (R13,
log 14). -/
def queryStart (e : Byte) (s : State) : Answer :=
  if s.mode = .async then .refused .queryInAsyncMode
  else if s.fgAt = .idle then .next (queryBegin e s)
  else .refused .foregroundBusy

/-- QUERY (R124), until it is complete or blocked (log 8). -/
def queryFor (e : Byte) (s : State) : Answer := andThen (queryStart e s) fgContinue

end Sys2Proof.Machine
end

