-- ==== Sys2Proof/Machine/Commands.lean ====
section
/-! DEFINITION. Command Dispatcher, the 26 commands (44_command_dispatcher.md): each is exactly one SEND (R135). -/

namespace Sys2Proof.Machine

/-- `play-next` (R136). -/
def execPlayNext (dh dl : Byte) (s : State) : Answer := sendFrame 0x01 dh dl s

/-- `play-previous` (R137). -/
def execPlayPrevious (dh dl : Byte) (s : State) : Answer := sendFrame 0x02 dh dl s

/-- `play-track` (R138). -/
def execPlayTrack (dh dl : Byte) (s : State) : Answer := sendFrame 0x03 dh dl s

/-- `volume-up` (R139). -/
def execVolumeUp (dh dl : Byte) (s : State) : Answer := sendFrame 0x04 dh dl s

/-- `volume-down` (R140). -/
def execVolumeDown (dh dl : Byte) (s : State) : Answer := sendFrame 0x05 dh dl s

/-- `set-volume` (R141). -/
def execSetVolume (dh dl : Byte) (s : State) : Answer := sendFrame 0x06 dh dl s

/-- `set-equalizer` (R142). -/
def execSetEqualizer (dh dl : Byte) (s : State) : Answer := sendFrame 0x07 dh dl s

/-- `repeat-track` (R143). -/
def execRepeatTrack (dh dl : Byte) (s : State) : Answer := sendFrame 0x08 dh dl s

/-- `set-source` (R144). -/
def execSetSource (dh dl : Byte) (s : State) : Answer := sendFrame 0x09 dh dl s

/-- `sleep` (R145). -/
def execSleep (dh dl : Byte) (s : State) : Answer := sendFrame 0x0A dh dl s

/-- `wake` (R146). -/
def execWake (dh dl : Byte) (s : State) : Answer := sendFrame 0x0B dh dl s

/-- `reset` (R147). -/
def execReset (dh dl : Byte) (s : State) : Answer := sendFrame 0x0C dh dl s

/-- `play` (R148). -/
def execPlay (dh dl : Byte) (s : State) : Answer := sendFrame 0x0D dh dl s

/-- `pause` (R149). -/
def execPause (dh dl : Byte) (s : State) : Answer := sendFrame 0x0E dh dl s

/-- `play-folder` (R150). -/
def execPlayFolder (dh dl : Byte) (s : State) : Answer := sendFrame 0x0F dh dl s

/-- `set-dac-gain` (R151). -/
def execSetDacGain (dh dl : Byte) (s : State) : Answer := sendFrame 0x10 dh dl s

/-- `repeat-all` (R152). -/
def execRepeatAll (dh dl : Byte) (s : State) : Answer := sendFrame 0x11 dh dl s

/-- `play-mp3-folder` (R153). -/
def execPlayMp3Folder (dh dl : Byte) (s : State) : Answer := sendFrame 0x12 dh dl s

/-- `play-advert-folder` (R154). -/
def execPlayAdvertFolder (dh dl : Byte) (s : State) : Answer := sendFrame 0x13 dh dl s

/-- `play-3000-folder` (R155). -/
def execPlay3000Folder (dh dl : Byte) (s : State) : Answer := sendFrame 0x14 dh dl s

/-- `stop-advert-folder` (R156). -/
def execStopAdvertFolder (dh dl : Byte) (s : State) : Answer := sendFrame 0x15 dh dl s

/-- `stop` (R157). -/
def execStop (dh dl : Byte) (s : State) : Answer := sendFrame 0x16 dh dl s

/-- `repeat-folder` (R158). -/
def execRepeatFolder (dh dl : Byte) (s : State) : Answer := sendFrame 0x17 dh dl s

/-- `random-all` (R159). -/
def execRandomAll (dh dl : Byte) (s : State) : Answer := sendFrame 0x18 dh dl s

/-- `loop-track` (R160). -/
def execLoopTrack (dh dl : Byte) (s : State) : Answer := sendFrame 0x19 dh dl s

/-- `enable-dac` (R161). -/
def execEnableDac (dh dl : Byte) (s : State) : Answer := sendFrame 0x1A dh dl s

end Sys2Proof.Machine
end

