-- ==== Sys2Proof/Machine/Encoder.lean ====
section
/-! DEFINITION. Frame Encoder (41_frame_encoder.md): ENCODE and SEND. -/

namespace Sys2Proof.Machine

/-- ENCODE (R83, R84): the frame goes to FG; no state is written. -/
def execEncode (op dh dl : Byte) (s : State) : Answer :=
  .next (s.record (.returned (.frame (encodeFrame s.params.variant op dh dl))))

/-- SEND (R87). -/
def execSend (op dh dl : Byte) (s : State) : Answer := sendFrame op dh dl s

end Sys2Proof.Machine
end

