-- ==== Sys2Proof/Machine/HostControl.lean ====
section
/-! DEFINITION. Host control operations (45_host_control.md): SETMODE, CLRSTAT, RDSTAT. -/

namespace Sys2Proof.Machine

/-- SETMODE (R181): `require QACTIVE = 0 and TXBUSY = 0` (log 14), then MODE <- m and nothing else (R182). -/
def execSetmode (m : Mode) (s : State) : Answer :=
  if s.txbusy || s.qactive then .refused .foregroundBusy else .next (s.setMode m)

/-- CLRSTAT (R183). -/
def execClrstat (mask : BitVec 5) (s : State) : Answer := .next (s.setStatus (clearStatus mask s.status))

/-- RDSTAT (R185): the field goes to FG, nothing is cleared; the indexes 5 to 7 are refused. -/
def execRdstat (f : BitVec 3) (s : State) : Answer :=
  match statusField f s.status with
  | some v => .next (s.record (.returned (.field v)))
  | none => .refused .badStatusField

end Sys2Proof.Machine
end

