-- ==== Sys2Proof/Machine/Interpreter.lean ====
section
/-! DEFINITION. Response Interpreter (43_response_interpreter.md): the inbound frames and QUERY. -/

namespace Sys2Proof.Machine

/-- `done`: `DONE <- 1` in ASYNC mode (R115). -/
def execDone (f : RxFields) (s : State) : Answer := .next (interpret OP_DONE f.dh f.dl s)

/-- `ready`: `READY <- 1` in ASYNC mode (R116). -/
def execReady (f : RxFields) (s : State) : Answer := .next (interpret OP_READY f.dh f.dl s)

/-- `error`: `ERRCODE <- DATA_LOW` in ASYNC mode (R117). -/
def execError (f : RxFields) (s : State) : Answer := .next (interpret OP_ERROR f.dh f.dl s)

/-- `ok-ack`: `OK <- 1` in ASYNC mode (R118). -/
def execOkAck (f : RxFields) (s : State) : Answer := .next (interpret OP_OK f.dh f.dl s)

/-- `query-0x42.rx`: the answer of `QUERY 42`; no status changes in ASYNC mode (R163, R119). -/
def execQuery42Rx (f : RxFields) (s : State) : Answer := .next (interpret 0x42 f.dh f.dl s)

/-- `get-volume.rx`: the answer of `QUERY 43`; no status changes in ASYNC mode (R164, R119). -/
def execGetVolumeRx (f : RxFields) (s : State) : Answer := .next (interpret 0x43 f.dh f.dl s)

/-- `query-0x44.rx`: the answer of `QUERY 44`; no status changes in ASYNC mode (R165, R119). -/
def execQuery44Rx (f : RxFields) (s : State) : Answer := .next (interpret 0x44 f.dh f.dl s)

/-- `query-0x45.rx`: the answer of `QUERY 45`; no status changes in ASYNC mode (R166, R119). -/
def execQuery45Rx (f : RxFields) (s : State) : Answer := .next (interpret 0x45 f.dh f.dl s)

/-- `query-0x46.rx`: the answer of `QUERY 46`; no status changes in ASYNC mode (R167, R119). -/
def execQuery46Rx (f : RxFields) (s : State) : Answer := .next (interpret 0x46 f.dh f.dl s)

/-- `query-0x47.rx`: the answer of `QUERY 47`; no status changes in ASYNC mode (R168, R119). -/
def execQuery47Rx (f : RxFields) (s : State) : Answer := .next (interpret 0x47 f.dh f.dl s)

/-- `query-0x48.rx`: the answer of `QUERY 48`; no status changes in ASYNC mode (R169, R119). -/
def execQuery48Rx (f : RxFields) (s : State) : Answer := .next (interpret 0x48 f.dh f.dl s)

/-- `query-0x49.rx`: the answer of `QUERY 49`; no status changes in ASYNC mode (R170, R119). -/
def execQuery49Rx (f : RxFields) (s : State) : Answer := .next (interpret 0x49 f.dh f.dl s)

/-- `query-0x4A.rx`: the answer of `QUERY 4A`; no status changes in ASYNC mode (R171, R119). -/
def execQuery4ARx (f : RxFields) (s : State) : Answer := .next (interpret 0x4A f.dh f.dl s)

/-- `query-0x4B.rx`: the answer of `QUERY 4B`; no status changes in ASYNC mode (R172, R119). -/
def execQuery4BRx (f : RxFields) (s : State) : Answer := .next (interpret 0x4B f.dh f.dl s)

/-- `query-0x4C.rx`: the answer of `QUERY 4C`; no status changes in ASYNC mode (R173, R119). -/
def execQuery4CRx (f : RxFields) (s : State) : Answer := .next (interpret 0x4C f.dh f.dl s)

/-- `query-0x4D.rx`: the answer of `QUERY 4D`; no status changes in ASYNC mode (R174, R119). -/
def execQuery4DRx (f : RxFields) (s : State) : Answer := .next (interpret 0x4D f.dh f.dl s)

/-- `query-0x4E.rx`: the answer of `QUERY 4E`; no status changes in ASYNC mode (R175, R119). -/
def execQuery4ERx (f : RxFields) (s : State) : Answer := .next (interpret 0x4E f.dh f.dl s)

/-- `query-0x4F.rx`: the answer of `QUERY 4F`; no status changes in ASYNC mode (R176, R119). -/
def execQuery4FRx (f : RxFields) (s : State) : Answer := .next (interpret 0x4F f.dh f.dl s)

/-- QUERY (R124). -/
def execQuery (e : Byte) (s : State) : Answer := queryFor e s

end Sys2Proof.Machine
end

