-- ==== Sys2Proof/Machine/Queries.lean ====
section
/-! DEFINITION. The 14 queries as outbound frames (44_command_dispatcher.md): each is exactly one SEND (R66, R135). -/

namespace Sys2Proof.Machine

/-- `query-0x42` (R163). -/
def execQuery42 (dh dl : Byte) (s : State) : Answer := sendFrame 0x42 dh dl s

/-- `get-volume` (R164). -/
def execGetVolume (dh dl : Byte) (s : State) : Answer := sendFrame 0x43 dh dl s

/-- `query-0x44` (R165). -/
def execQuery44 (dh dl : Byte) (s : State) : Answer := sendFrame 0x44 dh dl s

/-- `query-0x45` (R166). -/
def execQuery45 (dh dl : Byte) (s : State) : Answer := sendFrame 0x45 dh dl s

/-- `query-0x46` (R167). -/
def execQuery46 (dh dl : Byte) (s : State) : Answer := sendFrame 0x46 dh dl s

/-- `query-0x47` (R168). -/
def execQuery47 (dh dl : Byte) (s : State) : Answer := sendFrame 0x47 dh dl s

/-- `query-0x48` (R169). -/
def execQuery48 (dh dl : Byte) (s : State) : Answer := sendFrame 0x48 dh dl s

/-- `query-0x49` (R170). -/
def execQuery49 (dh dl : Byte) (s : State) : Answer := sendFrame 0x49 dh dl s

/-- `query-0x4A` (R171). -/
def execQuery4A (dh dl : Byte) (s : State) : Answer := sendFrame 0x4A dh dl s

/-- `query-0x4B` (R172). -/
def execQuery4B (dh dl : Byte) (s : State) : Answer := sendFrame 0x4B dh dl s

/-- `query-0x4C` (R173). -/
def execQuery4C (dh dl : Byte) (s : State) : Answer := sendFrame 0x4C dh dl s

/-- `query-0x4D` (R174). -/
def execQuery4D (dh dl : Byte) (s : State) : Answer := sendFrame 0x4D dh dl s

/-- `query-0x4E` (R175). -/
def execQuery4E (dh dl : Byte) (s : State) : Answer := sendFrame 0x4E dh dl s

/-- `query-0x4F` (R176). -/
def execQuery4F (dh dl : Byte) (s : State) : Answer := sendFrame 0x4F dh dl s

end Sys2Proof.Machine
end

