-- ==== Sys2Proof/Machine/Dispatch.lean ====
section
/-! DEFINITION. One arm per constructor of Instr. -/

namespace Sys2Proof.Machine

def exec (i : Instr) (s : State) : Host.Outcome State Fault Refusal :=
  match i with
  -- the commands, R136 to R161
  | .playNext dh dl => Sys2Proof.Machine.execPlayNext dh dl s
  | .playPrevious dh dl => Sys2Proof.Machine.execPlayPrevious dh dl s
  | .playTrack dh dl => Sys2Proof.Machine.execPlayTrack dh dl s
  | .volumeUp dh dl => Sys2Proof.Machine.execVolumeUp dh dl s
  | .volumeDown dh dl => Sys2Proof.Machine.execVolumeDown dh dl s
  | .setVolume dh dl => Sys2Proof.Machine.execSetVolume dh dl s
  | .setEqualizer dh dl => Sys2Proof.Machine.execSetEqualizer dh dl s
  | .repeatTrack dh dl => Sys2Proof.Machine.execRepeatTrack dh dl s
  | .setSource dh dl => Sys2Proof.Machine.execSetSource dh dl s
  | .sleep dh dl => Sys2Proof.Machine.execSleep dh dl s
  | .wake dh dl => Sys2Proof.Machine.execWake dh dl s
  | .reset dh dl => Sys2Proof.Machine.execReset dh dl s
  | .play dh dl => Sys2Proof.Machine.execPlay dh dl s
  | .pause dh dl => Sys2Proof.Machine.execPause dh dl s
  | .playFolder dh dl => Sys2Proof.Machine.execPlayFolder dh dl s
  | .setDacGain dh dl => Sys2Proof.Machine.execSetDacGain dh dl s
  | .repeatAll dh dl => Sys2Proof.Machine.execRepeatAll dh dl s
  | .playMp3Folder dh dl => Sys2Proof.Machine.execPlayMp3Folder dh dl s
  | .playAdvertFolder dh dl => Sys2Proof.Machine.execPlayAdvertFolder dh dl s
  | .play3000Folder dh dl => Sys2Proof.Machine.execPlay3000Folder dh dl s
  | .stopAdvertFolder dh dl => Sys2Proof.Machine.execStopAdvertFolder dh dl s
  | .stop dh dl => Sys2Proof.Machine.execStop dh dl s
  | .repeatFolder dh dl => Sys2Proof.Machine.execRepeatFolder dh dl s
  | .randomAll dh dl => Sys2Proof.Machine.execRandomAll dh dl s
  | .loopTrack dh dl => Sys2Proof.Machine.execLoopTrack dh dl s
  | .enableDac dh dl => Sys2Proof.Machine.execEnableDac dh dl s
  -- the queries and their answers, R163 to R176
  | .query42 dh dl => Sys2Proof.Machine.execQuery42 dh dl s
  | .getVolume dh dl => Sys2Proof.Machine.execGetVolume dh dl s
  | .query44 dh dl => Sys2Proof.Machine.execQuery44 dh dl s
  | .query45 dh dl => Sys2Proof.Machine.execQuery45 dh dl s
  | .query46 dh dl => Sys2Proof.Machine.execQuery46 dh dl s
  | .query47 dh dl => Sys2Proof.Machine.execQuery47 dh dl s
  | .query48 dh dl => Sys2Proof.Machine.execQuery48 dh dl s
  | .query49 dh dl => Sys2Proof.Machine.execQuery49 dh dl s
  | .query4A dh dl => Sys2Proof.Machine.execQuery4A dh dl s
  | .query4B dh dl => Sys2Proof.Machine.execQuery4B dh dl s
  | .query4C dh dl => Sys2Proof.Machine.execQuery4C dh dl s
  | .query4D dh dl => Sys2Proof.Machine.execQuery4D dh dl s
  | .query4E dh dl => Sys2Proof.Machine.execQuery4E dh dl s
  | .query4F dh dl => Sys2Proof.Machine.execQuery4F dh dl s
  | .query42Rx f => Sys2Proof.Machine.execQuery42Rx f s
  | .getVolumeRx f => Sys2Proof.Machine.execGetVolumeRx f s
  | .query44Rx f => Sys2Proof.Machine.execQuery44Rx f s
  | .query45Rx f => Sys2Proof.Machine.execQuery45Rx f s
  | .query46Rx f => Sys2Proof.Machine.execQuery46Rx f s
  | .query47Rx f => Sys2Proof.Machine.execQuery47Rx f s
  | .query48Rx f => Sys2Proof.Machine.execQuery48Rx f s
  | .query49Rx f => Sys2Proof.Machine.execQuery49Rx f s
  | .query4ARx f => Sys2Proof.Machine.execQuery4ARx f s
  | .query4BRx f => Sys2Proof.Machine.execQuery4BRx f s
  | .query4CRx f => Sys2Proof.Machine.execQuery4CRx f s
  | .query4DRx f => Sys2Proof.Machine.execQuery4DRx f s
  | .query4ERx f => Sys2Proof.Machine.execQuery4ERx f s
  | .query4FRx f => Sys2Proof.Machine.execQuery4FRx f s
  -- the status frames, R115 to R118
  | .done f => Sys2Proof.Machine.execDone f s
  | .ready f => Sys2Proof.Machine.execReady f s
  | .error f => Sys2Proof.Machine.execError f s
  | .okAck f => Sys2Proof.Machine.execOkAck f s
  -- the operations of the block
  | .cksum b1 b2 b3 b4 b5 b6 => Sys2Proof.Machine.execCksum b1 b2 b3 b4 b5 b6 s
  | .encode op dh dl => Sys2Proof.Machine.execEncode op dh dl s
  | .send op dh dl => Sys2Proof.Machine.execSend op dh dl s
  | .rxbyte b => Sys2Proof.Machine.execRxbyte b s
  | .query e => Sys2Proof.Machine.execQuery e s
  | .setmode m => Sys2Proof.Machine.execSetmode m s
  | .clrstat mask => Sys2Proof.Machine.execClrstat mask s
  | .rdstat f => Sys2Proof.Machine.execRdstat f s

end Sys2Proof.Machine
end

