-- ==== Sys2Proof/Machine/Agents.lean ====
section
/-! DEFINITION. Whose turn it is (R13, R48): FG, IRQ, ENV, DLY and power-up, each as one transition. -/

namespace Sys2Proof.Machine

/-- The operations FG executes (R13, R204): all but RXBYTE, which is IRQ's, and an inbound frame, which RXBYTE completes
(R114). -/
def isForeground (i : Instr) : Bool :=
  match (encode i).port with
  | .inbound => false
  | .rxbyte => false
  | .command => true
  | .cksum => true
  | .encode => true
  | .send => true
  | .query => true
  | .setmode => true
  | .clrstat => true
  | .rdstat => true

/-- FG issues its next operation (R13, R28): the oldest transaction is taken and decoded, and `run` does what is done of it at
once; with none left FG is done (R229). An RXBYTE or an inbound frame is none of FG's (R204, R114): it is refused (log 21). -/
def issueWith (run : Instr → State → Answer) (s : State) : Answer :=
  match s.env.ops with
  | [] => .next s
  | t :: rest =>
    match decode t with
    | .ok i => if isForeground i then run i (s.setEnv { s.env with ops := rest }) else .refused .notForeground
    | .error e => .refused (.undecodable e)

/-- The first transition of an operation (R48): SEND and QUERY have more, every other operation is one transition. -/
def startOperation (i : Instr) (s : State) : Answer :=
  match encode i with
  | ⟨.command, [_, _, _, op, _, dh, dl]⟩ => sendStart op dh dl s
  | ⟨.send, [op, dh, dl]⟩ => sendStart op dh dl s
  | ⟨.query, [e]⟩ => queryStart e s
  | _ => exec i s

/-- FG's turn: between operations it issues the next one, inside one it goes on; either way until it blocks or is done (log 8). -/
def fgTurn (s : State) : Answer :=
  if s.fgAt = .idle then issueWith exec s else fgContinue s

/-- One internal step of FG (R48). -/
def fgInternalTurn (s : State) : Answer :=
  if s.fgAt = .idle then issueWith startOperation s else fgStep s

/-- IRQ's turn (R198, R200): while MODE = ASYNC and a byte waits, RXBYTE on the oldest; else no IRQ step occurs. -/
def irqTurn (s : State) : Answer :=
  match s.mode, s.env.inbound with
  | .async, b :: rest => exec (.rxbyte b) (s.setEnv { s.env with inbound := rest })
  | _, _ => .next s

/-- Power-up (R34, R213): every register has its reset value; configuration, environment and record are outside the block
(log 18). -/
def powerUpTurn (s : State) : State := State.afterPowerUp s.params s.env s.trace

/-- The transition of the agent whose turn it is. -/
def takeTurn (t : Turn) (s : State) : Answer :=
  match t with
  | .fg => fgTurn s
  | .fgInternal => fgInternalTurn s
  | .irq => irqTurn s
  | .arrive b => .next (holdByte b s)
  | .sink r => .next (s.setEnv { s.env with sinkReady := r })
  | .dly r => .next (s.setEnv { s.env with delayReady := r })
  | .powerUp => .next (powerUpTurn s)

/-- The turn when `env.turns` names none: IRQ while it has a byte to take, else FG (R199: IRQ preempts FG; log 9). -/
def defaultTurn (s : State) : Turn :=
  match s.mode, s.env.inbound with
  | .async, _ :: _ => .irq
  | _, _ => .fg

/-- One transition of a run (R48). -/
def nextTransition (s : State) : Answer :=
  match s.env.turns with
  | [] => takeTurn (defaultTurn s) s
  | t :: rest => takeTurn t (s.setEnv { s.env with turns := rest })

/-- `s` with a transaction where FG takes its next operation, and the next turn FG's. -/
def placeOperation (t : Txn) (s : State) : State :=
  (s.setEnv { s.env with ops := t :: s.env.ops, turns := .fg :: s.env.turns }).setFgAt .idle

/-- `s` with a byte where IRQ takes its next one, reception enabled and the next turn IRQ's. -/
def placeByteForIrq (b : Byte) (s : State) : State :=
  (s.setEnv { s.env with inbound := b :: s.env.inbound, turns := .irq :: s.env.turns }).setMode .async

/-- `s` with all bytes of a frame but the last in RXB and the last one waiting: the next step completes the frame (R101). -/
def placeFrame (bytes : List Byte) (s : State) : State :=
  placeByteForIrq (bytes.getD (frameSize s.params.variant - 1) 0x00)
    ((s.setRxb (s.rxb.writeFrom 0 (bytes.take (frameSize s.params.variant - 1)))).setCur
      (BitVec.ofNat CUR_BITS (frameSize s.params.variant - 1)))

/-- `s` set up so that the next step runs the instruction of a transaction: an inbound frame (bytes after its prefix 0) and an
inbound byte come through the Assembler, any other operation is issued by FG (log 16). -/
def placeTxn (t : Txn) (s : State) : State :=
  match t.port, t.bytes with
  | .inbound, bytes => placeFrame (bytes ++ [0x00, 0x00, 0x00]) s
  | .rxbyte, [b] => placeByteForIrq b s
  | _, _ => placeOperation t s

end Sys2Proof.Machine
end

