-- ==== Sys2Proof/Machine/Step.lean ====
section
/-! DEFINITION. One step of the machine: one transition of the run (R48). -/

namespace Sys2Proof.Machine

/-- One transition: the agent whose turn it is moves. -/
def step (s : State) : Host.Outcome State Fault Refusal := nextTransition s

/-- `s` with the instruction of a table row's number where the next step fetches it (log 16). -/
def State.withFetchWord (s : State) (nbits w : Nat) : State := placeTxn (tableTxn nbits w) s

end Sys2Proof.Machine
end

