-- ==== Sys2Proof/Safety.lean ====
section
/-! DEFINITION. The terms claims about UFE use: the wire frame in closed form (R56, R58, R135), what a completed operation leaves,
runs, stuck and ended states (R194, R229), and the invariants of R33 and R230. -/

namespace Sys2Proof.Machine

/-- The checksum by the formulas of R75, computed on integers. -/
def checksumByFormula (v : Variant) (sum : Nat) : Option Word16 :=
  match v with
  | .std => some (BitVec.ofInt 16 ((0 - (sum : Int)) % 65536))
  | .slow => some (BitVec.ofInt 16 ((0 - (sum : Int)) % 65536))
  | .inv => some (BitVec.ofInt 16 ((0xFFFF - (sum : Int) + 1) % 65536))
  | .none => none

/-- `ck = (0 - (0x106 + k + dh + dl)) mod 65536` (R135). -/
def commandChecksum (k dh dl : Byte) : Nat := (65536 - (0x106 + k.toNat + dh.toNat + dl.toNat)) % 65536

/-- The frame on the wire: `7E FF 06 k 01 dh dl ckh ckl EF` under STD, SLOW and INV, `7E FF 06 k 01 dh dl EF` under NONE
(R135). -/
def wireFrame (v : Variant) (k dh dl : Byte) : List Byte :=
  match v with
  | .none => [0x7E, 0xFF, 0x06, k, 0x01, dh, dl, 0xEF]
  | _ => [0x7E, 0xFF, 0x06, k, 0x01, dh, dl, BitVec.ofNat 8 (commandChecksum k dh dl / 256),
      BitVec.ofNat 8 (commandChecksum k dh dl % 256), 0xEF]

/-- SEND can run to its end at once: FG is between operations, the sink takes the frame and, under SLOW, DLY answers (R87). -/
def SendReady (s : State) : Prop :=
  s.txbusy = false ∧ s.fgAt = .idle ∧ s.env.sinkReady = true ∧ (s.params.variant = .slow → s.env.delayReady = true)

/-- The events of a completed `send`: the frame's bytes, in ascending offset (R37, R89). -/
def frameEvents (v : Variant) (k dh dl : Byte) : List Event := (wireFrame v k dh dl).map .sent

/-- The events of a completed SEND: the frame, then under SLOW only one Delay request (R89, R90). -/
def sendEvents (v : Variant) (k dh dl : Byte) : List Event :=
  match v with
  | .slow => frameEvents v k dh dl ++ [.delay Config.settleMs]
  | _ => frameEvents v k dh dl

/-- What a completed SEND leaves: the frame in TXB and on the outbound stream, nothing else changed (R87 to R90, R94). -/
def afterSend (k dh dl : Byte) (s : State) : State :=
  { s with
    txb := s.txb.writeFrom 0 (wireFrame s.params.variant k dh dl)
    trace := s.trace ++ sendEvents s.params.variant k dh dl }

/-- `i` is exactly `SEND k, dh, dl` (R135), and completes where SEND does. -/
def SendsAs (i : Instr) (k dh dl : Byte) : Prop :=
  ∀ s : State, exec i s = exec (.send k dh dl) s ∧ (SendReady s → exec i s = .next (afterSend k dh dl s))

/-- SOURCE after a frame: SRC_RULE's byte, or what it held (R120). -/
def sourceAfter (s : State) (op dh dl : Byte) : Byte := (srcRuleAt s.params.srcRule op dh dl).getD s.status.source

/-- QUERY's result for a completed frame with opcode `op`: `(1, DH * 256 + DL)` on a match, `(0, 0x0000)` otherwise (R127,
R128). -/
def queryResult (e op dh dl : Byte) : Returned :=
  if op = e then .answer true (BitVec.ofNat 16 (dh.toNat * 256 + dl.toNat)) else .answer false 0

/-- An inbound frame of opcode `op` read in SYNC mode: the active QUERY returns its result and ends (R127 to R129); with no QUERY
active the frame is read by no agent (R38, R98). -/
def AnswersAs (i : Instr) (op : Byte) (f : RxFields) : Prop :=
  ∀ s : State, s.mode = .sync →
    (s.qactive = true → exec i s = .next { s with
      trace := s.trace ++ [.returned (queryResult s.qexp op f.dh f.dl)], qactive := false, fgAt := .idle }) ∧
    (s.qactive = false → exec i s = .next s)

/-- An inbound frame of an opcode without a status field read in ASYNC mode: READY, DONE, OK and ERRCODE keep their values,
SOURCE follows SRC_RULE (R119, R120). -/
def IgnoredAs (i : Instr) (op : Byte) (f : RxFields) : Prop :=
  ∀ s : State, s.mode = .async →
    exec i s = .next { s with status := { s.status with source := sourceAfter s op f.dh f.dl } }

/-- A sequence of `RX` steps (R11, R97). -/
def feed : List Byte → State → Answer
  | [], s => .next s
  | b :: bs, s => andThen (exec (.rxbyte b) s) (feed bs)

/-- A sequence of transitions by the agents named (R48). -/
def takeTurns : List Turn → State → Answer
  | [], s => .next s
  | t :: ts, s => andThen (takeTurn t s) (takeTurns ts)

/-- The opcode of the SEND an instruction is, none if it is no SEND (R135). -/
def sendOpcode (i : Instr) : Option Byte :=
  match encode i with
  | ⟨.command, [_, _, _, op, _, _, _]⟩ => some op
  | ⟨.send, [op, _, _]⟩ => some op
  | _ => none

/-- The step is FG's turn `turn`, FG is between operations, its oldest transaction decodes to `i`, and `s'` is the state without
that turn and that transaction. With no turn named the turn is `fg` where IRQ has no byte to take (log 9). -/
def Issues (turn : Turn) (s : State) (i : Instr) (s' : State) : Prop :=
  s.fgAt = .idle ∧ ∃ t rest, s.env.ops = t :: rest ∧ decode t = .ok i ∧
    ((∃ turns, s.env.turns = turn :: turns ∧ s' = { s with env := { s.env with ops := rest, turns := turns } }) ∨
      (turn = .fg ∧ s.env.turns = [] ∧ (s.mode = .sync ∨ s.env.inbound = []) ∧
        s' = { s with env := { s.env with ops := rest } }))

/-- FG's next operation, whatever the turn by which it is issued. -/
def NextOperation (s : State) (i : Instr) : Prop :=
  s.fgAt = .idle ∧ isForeground i = true ∧ ∃ t rest, s.env.ops = t :: rest ∧ decode t = .ok i

/-- The next transition is power-up (R213). -/
def PowersUp (s : State) : Prop := ∃ turns, s.env.turns = .powerUp :: turns

/-- FG is inside an operation and its next internal step cannot be taken (R194). -/
def FgBlocked (s : State) : Prop :=
  ((∃ i, s.fgAt = .sendCall i) ∧ s.env.sinkReady = false) ∨ (s.fgAt = .delayWait ∧ s.env.delayReady = false) ∨
    ((∃ n, s.fgAt = .recv n) ∧ s.env.inbound = [])

/-- The run has ended (R229): FG has completed its last operation, and every byte of the run that the active mode consumes is
consumed: in ASYNC mode none waits and none is still to arrive. -/
def Ended (s : State) : Prop :=
  s.txbusy = false ∧ s.qactive = false ∧ s.fgAt = .idle ∧ s.env.ops = [] ∧
    (s.mode = .async → s.env.inbound = [] ∧ ∀ b, Turn.arrive b ∉ s.env.turns)

/-- The first `n` bytes of a memory have values. -/
def Memory.Holds (m : Memory) (n : Nat) : Prop := ∀ i, i < n → (Memory.read m i).isSome = true

/-- TXBUSY and QACTIVE agree with where FG stands, and what the next internal step reads has a value (R26, R27, R87, R126). -/
def FgConsistent (s : State) : Prop :=
  match s.fgAt with
  | .idle => s.txbusy = false ∧ s.qactive = false
  | .encodeCall _ _ _ => s.txbusy = true ∧ s.qactive = false
  | .fill i _ rest => s.txbusy = true ∧ s.qactive = false ∧ i + 1 + rest.length = frameSize s.params.variant ∧
      Memory.Holds s.txb i
  | .sendCall i => s.txbusy = true ∧ s.qactive = false ∧ i < frameSize s.params.variant ∧
      Memory.Holds s.txb (frameSize s.params.variant)
  | .delayCall => s.txbusy = true ∧ s.qactive = false ∧ s.params.variant = .slow
  | .delayWait => s.txbusy = true ∧ s.qactive = false ∧ s.params.variant = .slow
  | .sendDone => s.txbusy = true ∧ s.qactive = false
  | .recv n => s.txbusy = false ∧ s.qactive = true ∧ s.mode = .sync ∧
      (s.params.framing = .resync → n = 0) ∧
      (s.params.framing = .blind → n < frameSize s.params.variant ∧ Memory.Holds s.rxb n)

/-- The invariant of R33 (a) and (c) and the launch premises of R230: both memories in canonical form, CUR < FRAME_SIZE, every
`RXB[i]` with i < CUR holds a value, FG's bits agree with where it stands. -/
def StateInv (s : State) : Prop :=
  Memory.wf s.txb = true ∧ Memory.wf s.rxb = true ∧ s.cur.toNat < frameSize s.params.variant ∧
    Memory.Holds s.rxb s.cur.toNat ∧ FgConsistent s

/-- R33 (b): with SYNC_FRAMING = `resync`, if CUR > 0 then `RXB[0]` = START. -/
def StartInv (s : State) : Prop :=
  s.params.framing = .resync → 0 < s.cur.toNat → Memory.read s.rxb 0 = some START

end Sys2Proof.Machine
end

