-- ==== Sys2Proof/Certificates/Slice0/Obligations.lean ====
section
/-! DEFINITION. The statements about UFE for the provers. -/

open Sys2Proof Sys2Proof.Machine

/-- R63 to R70: no bit of an encoding is dropped. -/
def Obligations.DecodeOfEncodeIsTheInstruction : Prop :=
  ∀ i : Instr, decode (encode i) = .ok i

/-- R63 to R70: every transaction that decodes is the encoding of what it decodes to, so no two transactions are one
instruction and no reserved one falls through to a neighbour. -/
def Obligations.EncodeOfDecodeIsTheTransaction : Prop :=
  ∀ (t : Txn) (i : Instr), decode t = .ok i → encode i = t

/-- The table's words, one for each family, decode to the rows they stand for (R63, R70). A number carries neither a direction
nor a port: that one which fits an outbound and an inbound row (0x7EFF0643010000 does) is read as the outbound row, and that a
width names a port, is the model's choice (log 13). -/
def Obligations.TableWordsDecodeToTheirRows : Prop :=
  decodeTableWord 56 0x7EFF060601000F = some (.setVolume 0x00 0x0F) ∧
  decodeTableWord 56 0x7EFF061A01FF7E = some (.enableDac 0xFF 0x7E) ∧
  decodeTableWord 56 0x7EFF0643010000 = some (.getVolume 0x00 0x00) ∧
  decodeTableWord 56 0x7E00004F000000 = some (.query4FRx ⟨0x00, 0x00, 0x00, 0x00, 0x00⟩) ∧
  decodeTableWord 56 0x7EFF063D010005 = some (.done ⟨0xFF, 0x06, 0x01, 0x00, 0x05⟩) ∧
  decodeTableWord 48 0xFF060601000F = some (.cksum 0xFF 0x06 0x06 0x01 0x00 0x0F) ∧
  decode ⟨.encode, [0x03, 0x12, 0x34]⟩ = .ok (.encode 0x03 0x12 0x34) ∧
  decode ⟨.send, [0x03, 0x12, 0x34]⟩ = .ok (.send 0x03 0x12 0x34) ∧
  decode ⟨.rxbyte, [0x7E]⟩ = .ok (.rxbyte 0x7E) ∧
  decode ⟨.query, [0x43]⟩ = .ok (.query 0x43) ∧
  decode ⟨.setmode, [0x01]⟩ = .ok (.setmode .async) ∧
  decode ⟨.clrstat, [0x0C]⟩ = .ok (.clrstat 0x0C) ∧
  decode ⟨.rdstat, [0x03]⟩ = .ok (.rdstat 0x03)

/-- R178, R67: a name stands for the opcodes 0x01 to 0x1A and 0x42 to 0x4F outbound and for 0x3D, 0x3F to 0x4F inbound, and
for no other. -/
def Obligations.OnlyListedOpcodesHaveNames : Prop :=
  ∀ (op dh dl : Byte) (f : RxFields),
    (decode (commandTxn op dh dl) = .error .unlistedCommand ↔
      ¬ (1 ≤ op.toNat ∧ op.toNat ≤ 0x1A ∨ 0x42 ≤ op.toNat ∧ op.toNat ≤ 0x4F)) ∧
    (decode (responseTxn op f) = .error .unlistedResponse ↔
      ¬ (op.toNat = 0x3D ∨ 0x3F ≤ op.toNat ∧ op.toNat ≤ 0x4F))

/-- R75: CKSUM answers the formula of the variant, none under NONE, and touches no state. -/
def Obligations.CksumAnswersTheFormula : Prop :=
  ∀ (b1 b2 b3 b4 b5 b6 : Byte) (s : State),
    exec (.cksum b1 b2 b3 b4 b5 b6) s = .next { s with
      trace := s.trace ++ [.returned (.checksum (checksumByFormula s.params.variant
        (b1.toNat + b2.toNat + b3.toNat + b4.toNat + b5.toNat + b6.toNat)))] }

/-- The spec's derived law R80: INV and STD give the same number for every input, so the same frame. -/
def Obligations.InvertedEqualsStandard : Prop :=
  (∀ b1 b2 b3 b4 b5 b6 : Byte,
    checksumOf .inv (sumOf b1 b2 b3 b4 b5 b6) = checksumOf .std (sumOf b1 b2 b3 b4 b5 b6)) ∧
  ∀ op dh dl : Byte, encodeFrame .inv op dh dl = encodeFrame .std op dh dl

/-- The spec's derived law R82: in a checksummed frame the six protocol bytes and the checksum add to 0 modulo 65536. -/
def Obligations.FrameSumsToZero : Prop :=
  ∀ (v : Variant) (op dh dl : Byte), v ≠ .none →
    ∃ b0 b1 b2 b3 b4 b5 b6 ckh ckl e : Byte, encodeFrame v op dh dl = [b0, b1, b2, b3, b4, b5, b6, ckh, ckl, e] ∧
      (b1.toNat + b2.toNat + b3.toNat + b4.toNat + b5.toNat + b6.toNat + (ckh.toNat * 256 + ckl.toNat)) % 65536 = 0

/-- The range R81 names: the checksum of a frame UFE builds lies between 0xFBFD and 0xFEFA. -/
def Obligations.FrameChecksumRange : Prop :=
  ∀ (v : Variant) (op dh dl : Byte), v ≠ .none →
    ∃ ck : Word16, checksumOf v (sumOf VERSION LENGTH op ACK_REQ dh dl) = some ck ∧ 0xFBFD ≤ ck.toNat ∧ ck.toNat ≤ 0xFEFA

/-- R83, R85, R86: ENCODE answers the frame, 10 bytes with a checksum and 8 without, and touches no state. -/
def Obligations.EncodeAnswersTheFrame : Prop :=
  ∀ (op dh dl : Byte) (s : State),
    exec (.encode op dh dl) s =
        .next { s with trace := s.trace ++ [.returned (.frame (wireFrame s.params.variant op dh dl))] } ∧
      (wireFrame s.params.variant op dh dl).length = (if s.params.variant = .none then 8 else 10)

/-- R87, R89: where the primitives answer, SEND puts the frame in TXB and on the outbound stream, asks for the settle delay
under SLOW only, and changes nothing else. The delay's event is the spec's decision D16 (log 3, log 26), the bytes of TXB behind
an 8-byte frame are its decision D27, and that exec runs a SEND whole, with primitives that answer at once, is the model's
choice (log 8, log 10). -/
def Obligations.SendCompletes : Prop :=
  ∀ (op dh dl : Byte) (s : State), SendReady s → exec (.send op dh dl) s = .next (afterSend op dh dl s)

/-- R135, with the frame the spec derives there: every command is exactly the SEND of its opcode (run whole: log 8). -/
def Obligations.CommandsAreSends : Prop :=
  ∀ dh dl : Byte,
    SendsAs (.playNext dh dl) 0x01 dh dl ∧
    SendsAs (.playPrevious dh dl) 0x02 dh dl ∧
    SendsAs (.playTrack dh dl) 0x03 dh dl ∧
    SendsAs (.volumeUp dh dl) 0x04 dh dl ∧
    SendsAs (.volumeDown dh dl) 0x05 dh dl ∧
    SendsAs (.setVolume dh dl) 0x06 dh dl ∧
    SendsAs (.setEqualizer dh dl) 0x07 dh dl ∧
    SendsAs (.repeatTrack dh dl) 0x08 dh dl ∧
    SendsAs (.setSource dh dl) 0x09 dh dl ∧
    SendsAs (.sleep dh dl) 0x0A dh dl ∧
    SendsAs (.wake dh dl) 0x0B dh dl ∧
    SendsAs (.reset dh dl) 0x0C dh dl ∧
    SendsAs (.play dh dl) 0x0D dh dl ∧
    SendsAs (.pause dh dl) 0x0E dh dl ∧
    SendsAs (.playFolder dh dl) 0x0F dh dl ∧
    SendsAs (.setDacGain dh dl) 0x10 dh dl ∧
    SendsAs (.repeatAll dh dl) 0x11 dh dl ∧
    SendsAs (.playMp3Folder dh dl) 0x12 dh dl ∧
    SendsAs (.playAdvertFolder dh dl) 0x13 dh dl ∧
    SendsAs (.play3000Folder dh dl) 0x14 dh dl ∧
    SendsAs (.stopAdvertFolder dh dl) 0x15 dh dl ∧
    SendsAs (.stop dh dl) 0x16 dh dl ∧
    SendsAs (.repeatFolder dh dl) 0x17 dh dl ∧
    SendsAs (.randomAll dh dl) 0x18 dh dl ∧
    SendsAs (.loopTrack dh dl) 0x19 dh dl ∧
    SendsAs (.enableDac dh dl) 0x1A dh dl

/-- R66, R163 to R176: every outbound query is exactly the SEND of its opcode (run whole: log 8). -/
def Obligations.QueriesAreSends : Prop :=
  ∀ dh dl : Byte,
    SendsAs (.query42 dh dl) 0x42 dh dl ∧
    SendsAs (.getVolume dh dl) 0x43 dh dl ∧
    SendsAs (.query44 dh dl) 0x44 dh dl ∧
    SendsAs (.query45 dh dl) 0x45 dh dl ∧
    SendsAs (.query46 dh dl) 0x46 dh dl ∧
    SendsAs (.query47 dh dl) 0x47 dh dl ∧
    SendsAs (.query48 dh dl) 0x48 dh dl ∧
    SendsAs (.query49 dh dl) 0x49 dh dl ∧
    SendsAs (.query4A dh dl) 0x4A dh dl ∧
    SendsAs (.query4B dh dl) 0x4B dh dl ∧
    SendsAs (.query4C dh dl) 0x4C dh dl ∧
    SendsAs (.query4D dh dl) 0x4D dh dl ∧
    SendsAs (.query4E dh dl) 0x4E dh dl ∧
    SendsAs (.query4F dh dl) 0x4F dh dl

/-- The frame a named command or query sends begins with the 7 bytes of its row of the opcode table (R63); no byte but the
frame's goes out (R89). That exec runs the SEND whole is the model's choice (log 8). -/
def Obligations.SentFrameBeginsWithTheTableRow : Prop :=
  ∀ (i : Instr) (s : State), (encode i).port = .command → SendReady s →
    ∃ (t : State) (frame : List Byte) (more : List Event), exec i s = .next t ∧
      t.trace = s.trace ++ frame.map .sent ++ more ∧ (∀ b, Event.sent b ∉ more) ∧
      frame.take 7 = (encode i).bytes ∧ frame.length = frameSize s.params.variant

/-- R88 (the bytes it keeps are the spec's decision D27; exec runs it whole: log 8): SEND writes `TXB[0 .. FRAME_SIZE-1]`; every other byte of TXB, and
every byte of RXB, reads as before. -/
def Obligations.SendFillsTxbOnly : Prop :=
  ∀ (op dh dl : Byte) (s : State), SendReady s →
    ∃ t : State, exec (.send op dh dl) s = .next t ∧
      (∀ a, a < frameSize s.params.variant → t.txb.read a = (wireFrame s.params.variant op dh dl)[a]?) ∧
      (∀ a, frameSize s.params.variant ≤ a → t.txb.read a = s.txb.read a) ∧
      ∀ a, t.rxb.read a = s.rxb.read a

/-- R93 (the spec's decision D17): SEND, and every command and query that is one, is refused while TXBUSY = 1. -/
def Obligations.SendWhileBusyIsRefused : Prop :=
  ∀ (i : Instr) (op : Byte) (s : State), sendOpcode i = some op → s.txbusy = true → exec i s = .refused .sendWhileBusy

/-- R92: with a sink that is not ready SEND stands at `send` with TXBUSY = 1, TXB filled and nothing sent; under SLOW with a
DLY that does not answer it stands at `delay` with the frame sent and the delay asked for; FG's turns change nothing there. The
delay's event is the spec's decision D16 (log 3, log 26); that a turn of a blocked FG answers the same state is the model's
choice (log 19), as is the form in which the primitives answer (log 10). -/
def Obligations.SendStaysStuckWithoutAnswer : Prop :=
  ∀ (op dh dl : Byte) (s : State), s.txbusy = false → s.fgAt = .idle →
    (s.env.sinkReady = false →
      ∃ t : State, exec (.send op dh dl) s = .next t ∧
        t = { s with txbusy := true, fgAt := .sendCall 0,
                     txb := s.txb.writeFrom 0 (wireFrame s.params.variant op dh dl) } ∧
        takeTurn .fg t = .next t ∧ takeTurn .fgInternal t = .next t) ∧
    (s.env.sinkReady = true → s.env.delayReady = false → s.params.variant = .slow →
      ∃ t : State, exec (.send op dh dl) s = .next t ∧
        t = { s with txbusy := true, fgAt := .delayWait,
                     txb := s.txb.writeFrom 0 (wireFrame s.params.variant op dh dl),
                     trace := s.trace ++ frameEvents s.params.variant op dh dl ++ [.delay Config.settleMs] } ∧
        takeTurn .fg t = .next t ∧ takeTurn .fgInternal t = .next t)

/-- The spec's derived law R94: SEND reads and writes no receive state: run on a state with other receive state it does the
same to everything else and leaves that receive state as it was. -/
def Obligations.SendIgnoresReceiveState : Prop :=
  ∀ (op dh dl : Byte) (s : State) (rxb : Memory) (cur : BitVec CUR_BITS) (st : Status) (mode : Mode) (qa : Bool) (qe : Byte),
    exec (.send op dh dl) { s with rxb := rxb, cur := cur, status := st, mode := mode, qactive := qa, qexp := qe } =
      andThen (exec (.send op dh dl) s) fun t =>
        .next { t with rxb := rxb, cur := cur, status := st, mode := mode, qactive := qa, qexp := qe }

/-- The model's two turns of FG agree (log 7, log 8), after R87 and R48: the internal steps of a SEND, one by one, come to what
SEND comes to at once: lines 0 and 1, line 2, one write to TXB for each byte of the frame, one transmitted byte for each, under
SLOW the delay request and its end, completion. So it is with every operation, QUERY too, and from every point inside one: FG's
whole turn is some number of its internal turns. Which lines are one transition is the model's choice (log 7), as is the turn
that runs an operation whole (log 8). -/
def Obligations.SendIsItsInternalSteps : Prop :=
  (∀ (op dh dl : Byte) (rest : List Txn) (s : State), SendReady s → s.env.ops = ⟨.send, [op, dh, dl]⟩ :: rest →
    takeTurns (List.replicate (2 * frameSize s.params.variant + (if s.params.variant = .slow then 5 else 3)) .fgInternal) s =
      takeTurn .fg s) ∧
  ∀ s : State, ∃ n, 0 < n ∧ takeTurns (List.replicate n .fgInternal) s = takeTurn .fg s

/-- R226 (two buffers: the spec's decision D4), R44: inside a SEND, between its writes to TXB, between its transmitted bytes and
during its settle delay, an internal step of FG and an IRQ step commute: both orders lead to one state. Inside a QUERY MODE is
SYNC and no IRQ step occurs. -/
def Obligations.SendCommutesWithReception : Prop :=
  ∀ (s s1 s2 : State) (b : Byte), s.mode = .async → (∀ n, s.fgAt ≠ .recv n) → fgStep s = .next s1 →
    exec (.rxbyte b) s = .next s2 →
    ∃ t : State, exec (.rxbyte b) s1 = .next t ∧ fgStep s2 = .next t

/-- R99 (and R107): with CUR = 0 a byte that is not START changes nothing, whatever the `on_complete` of the step, so
neither in the receive interrupt nor inside QUERY. -/
def Obligations.DiscardIsTheIdentity : Prop :=
  ∀ (b : Byte) (s : State), s.cur = 0 → b ≠ 0x7E →
    (∀ onComplete : State → Answer, assemble onComplete b s = .next s) ∧
    (s.mode = .async → exec (.rxbyte b) s = .next s)

/-- R100: every other byte is stored at the cursor, which advances by 1; short of the frame size nothing else changes. -/
def Obligations.StoreAndAdvance : Prop :=
  ∀ (b : Byte) (s : State), s.mode = .async → (s.cur = 0 → b = 0x7E) →
    s.cur.toNat + 1 < frameSize s.params.variant →
    ∃ t : State, exec (.rxbyte b) s = .next t ∧ t = { s with rxb := t.rxb, cur := t.cur } ∧
      t.cur.toNat = s.cur.toNat + 1 ∧ t.rxb.read s.cur.toNat = some b ∧
      ∀ a, a ≠ s.cur.toNat → t.rxb.read a = s.rxb.read a

/-- R101: the byte that completes a frame is stored at FRAME_SIZE - 1, CUR advances, `on_complete` runs on the stored frame,
then CUR returns to 0; in ASYNC mode `on_complete` is DISPATCH, and RXB still holds the frame. -/
def Obligations.CompletionDispatchesAndResetsTheCursor : Prop :=
  ∀ (b : Byte) (s : State), s.cur.toNat + 1 = frameSize s.params.variant →
    (∀ onComplete : State → Answer, assemble onComplete b s =
      andThen (onComplete { s with rxb := s.rxb.write (frameSize s.params.variant - 1) b, cur := s.cur + 1 }) fun u =>
        .next { u with cur := 0 }) ∧
    ∀ op dh dl : Byte, s.mode = .async →
      s.rxb.read 3 = some op → s.rxb.read 5 = some dh → s.rxb.read 6 = some dl →
      ∃ t : State, exec (.rxbyte b) s = .next t ∧
        t = { s with rxb := t.rxb, cur := 0, status := dispatchStatus s.params.srcRule op dh dl s.status } ∧
        t.rxb.read (frameSize s.params.variant - 1) = some b ∧
        ∀ a, a ≠ frameSize s.params.variant - 1 → t.rxb.read a = s.rxb.read a

/-- R102: the Assembler's transitions: AWAITING_START keeps itself or goes to ACCUMULATING(1), ACCUMULATING(c) goes to c +
1, the last one back to AWAITING_START; there is no other, whatever the `on_complete`, and in ASYNC mode the step never
stops. -/
def Obligations.AssemblerTransitions : Prop :=
  ∀ (b : Byte) (s : State), StateInv s →
    (∀ (onComplete : State → Answer) (t : State), assemble onComplete b s = .next t →
      t.cur.toNat =
        (if s.cur.toNat = 0 then (if b = 0x7E then 1 else 0)
         else if s.cur.toNat < frameSize s.params.variant - 1 then s.cur.toNat + 1 else 0)) ∧
    (s.mode = .async → ∃ t : State, exec (.rxbyte b) s = .next t ∧
      t.cur.toNat =
        (if s.cur.toNat = 0 then (if b = 0x7E then 1 else 0)
         else if s.cur.toNat < frameSize s.params.variant - 1 then s.cur.toNat + 1 else 0))

/-- R96, in the form the spec derives: a frame UFE builds, fed byte by byte from CUR = 0, completes bit-identical in RXB,
for every variant and operand; the outbound buffer and stream are untouched. -/
def Obligations.EncodedFrameRoundTrips : Prop :=
  ∀ (op dh dl : Byte) (s : State), s.mode = .async → s.cur = 0 →
    ∃ t : State, feed (encodeFrame s.params.variant op dh dl) s = .next t ∧
      (∀ i, i < frameSize s.params.variant → t.rxb.read i = (encodeFrame s.params.variant op dh dl)[i]?) ∧
      t = { s with rxb := t.rxb, status := dispatchStatus s.params.srcRule op dh dl s.status }

/-- R109 (and R108): from CUR = 0 any FRAME_SIZE bytes that begin with START complete, whatever RXB held before; RXB then
holds them, and the status is DISPATCH's on bytes 3, 5 and 6. -/
def Obligations.AnyFrameCompletesWithoutStaleBytes : Prop :=
  ∀ (bs : List Byte) (s : State), s.mode = .async → s.cur = 0 → bs.length = frameSize s.params.variant →
    bs[0]? = some 0x7E →
    ∃ (t : State) (op dh dl : Byte), feed bs s = .next t ∧ bs[3]? = some op ∧ bs[5]? = some dh ∧ bs[6]? = some dl ∧
      (∀ i, i < frameSize s.params.variant → t.rxb.read i = bs[i]?) ∧
      (∀ i, frameSize s.params.variant ≤ i → t.rxb.read i = s.rxb.read i) ∧
      t = { s with rxb := t.rxb, status := dispatchStatus s.params.srcRule op dh dl s.status }

/-- The spec's derived law R112: from CUR = c, FRAME_SIZE - c bytes (the first START if c = 0) return CUR to 0. -/
def Obligations.AwaitingStartIsReachable : Prop :=
  ∀ (bs : List Byte) (s : State), StateInv s → s.mode = .async →
    bs.length + s.cur.toNat = frameSize s.params.variant → (s.cur = 0 → bs[0]? = some 0x7E) →
    ∃ t : State, feed bs s = .next t ∧ t.cur = 0

/-- R38, R198 (what ENV does with it: the spec's decision D21, log 11): a byte that arrives in SYNC mode causes no IRQ step:
it waits, last in the stream. -/
def Obligations.ByteWaitsInSyncMode : Prop :=
  ∀ (b : Byte) (s : State), s.mode = .sync →
    exec (.rxbyte b) s = .next { s with env := { s.env with inbound := s.env.inbound ++ [b] } }

/-- R115, R116, R118, and R117 with the spec's decisions D15 and D25: each status frame sets its own field in ASYNC mode and
no other; SOURCE follows SRC_RULE (D13). That an inbound row is an instruction of its own, which leaves RXB and CUR to RXBYTE, is
the model's reading (log 12). -/
def Obligations.StatusFramesSetTheirField : Prop :=
  ∀ (f : RxFields) (s : State), s.mode = .async →
    exec (.done f) s = .next { s with status :=
      { s.status with done := true, source := sourceAfter s 0x3D f.dh f.dl } } ∧
    exec (.ready f) s = .next { s with status :=
      { s.status with ready := true, source := sourceAfter s 0x3F f.dh f.dl } } ∧
    exec (.error f) s = .next { s with status :=
      { s.status with errcode := f.dl, source := sourceAfter s 0x40 f.dh f.dl } } ∧
    exec (.okAck f) s = .next { s with status :=
      { s.status with ok := true, source := sourceAfter s 0x41 f.dh f.dl } }

/-- R119, R120 (the spec's decisions D24, D13): a query answer in ASYNC mode changes no flag and no error code. That an inbound
row is an instruction of its own, which leaves RXB and CUR to RXBYTE, is the model's reading (log 12). -/
def Obligations.QueryAnswersChangeNoFlagInAsyncMode : Prop :=
  ∀ f : RxFields,
    IgnoredAs (.query42Rx f) 0x42 f ∧
    IgnoredAs (.getVolumeRx f) 0x43 f ∧
    IgnoredAs (.query44Rx f) 0x44 f ∧
    IgnoredAs (.query45Rx f) 0x45 f ∧
    IgnoredAs (.query46Rx f) 0x46 f ∧
    IgnoredAs (.query47Rx f) 0x47 f ∧
    IgnoredAs (.query48Rx f) 0x48 f ∧
    IgnoredAs (.query49Rx f) 0x49 f ∧
    IgnoredAs (.query4ARx f) 0x4A f ∧
    IgnoredAs (.query4BRx f) 0x4B f ∧
    IgnoredAs (.query4CRx f) 0x4C f ∧
    IgnoredAs (.query4DRx f) 0x4D f ∧
    IgnoredAs (.query4ERx f) 0x4E f ∧
    IgnoredAs (.query4FRx f) 0x4F f

/-- R127 to R129: in SYNC mode an inbound frame is the active QUERY's answer and writes no status; with no QUERY active no
agent reads it (log 12). That QEXP keeps its opcode behind QACTIVE = 0, where R134 discards it, is the model's choice (log 6). -/
def Obligations.InboundFramesAnswerTheActiveQuery : Prop :=
  ∀ f : RxFields,
    AnswersAs (.done f) 0x3D f ∧
    AnswersAs (.ready f) 0x3F f ∧
    AnswersAs (.error f) 0x40 f ∧
    AnswersAs (.okAck f) 0x41 f ∧
    AnswersAs (.query42Rx f) 0x42 f ∧
    AnswersAs (.getVolumeRx f) 0x43 f ∧
    AnswersAs (.query44Rx f) 0x44 f ∧
    AnswersAs (.query45Rx f) 0x45 f ∧
    AnswersAs (.query46Rx f) 0x46 f ∧
    AnswersAs (.query47Rx f) 0x47 f ∧
    AnswersAs (.query48Rx f) 0x48 f ∧
    AnswersAs (.query49Rx f) 0x49 f ∧
    AnswersAs (.query4ARx f) 0x4A f ∧
    AnswersAs (.query4BRx f) 0x4B f ∧
    AnswersAs (.query4CRx f) 0x4C f ∧
    AnswersAs (.query4DRx f) 0x4D f ∧
    AnswersAs (.query4ERx f) 0x4E f ∧
    AnswersAs (.query4FRx f) 0x4F f

/-- R119 (which opcodes are unknown: the spec's decision D24): a completed frame whose opcode is none of 0x3D, 0x3F, 0x40,
0x41 leaves READY, DONE, OK and ERRCODE unchanged and CUR returns to 0. -/
def Obligations.UnknownOpcodesAreIgnored : Prop :=
  ∀ (b op dh dl : Byte) (s : State), s.mode = .async → s.cur.toNat + 1 = frameSize s.params.variant →
    s.rxb.read 3 = some op → s.rxb.read 5 = some dh → s.rxb.read 6 = some dl →
    op ≠ 0x3D → op ≠ 0x3F → op ≠ 0x40 → op ≠ 0x41 →
    ∃ t : State, exec (.rxbyte b) s = .next t ∧ t.cur = 0 ∧ t.status.ready = s.status.ready ∧
      t.status.done = s.status.done ∧ t.status.ok = s.status.ok ∧ t.status.errcode = s.status.errcode

/-- The byte that completes a frame runs the instruction the frame decodes to: RXBYTE is the store, then exec of the decoded
inbound instruction, then CUR <- 0 (R101, R114). -/
def Obligations.CompletionRunsTheDecodedFrame : Prop :=
  ∀ (b : Byte) (i : Instr) (bytes : List Byte) (s s' : State), s.mode = .async →
    s.cur.toNat + 1 = frameSize s.params.variant →
    s' = { s with rxb := s.rxb.write s.cur.toNat b, cur := s.cur + 1 } →
    s'.rxb.readFrom 0 7 = some bytes → decode ⟨.inbound, bytes⟩ = .ok i →
    exec (.rxbyte b) s = andThen (exec i s') fun t => .next { t with cur := 0 }

/-- R120: every SRC_RULE, a total function of (op, dh, dl) to an optional byte, is some table (log 2). -/
def Obligations.EverySourceRuleIsATable : Prop :=
  ∀ g : Byte → Byte → Byte → Option Byte, ∃ rule : SrcRule, ∀ op dh dl : Byte, srcRuleAt rule op dh dl = g op dh dl

/-- R131 (the spec's decision D8): QUERY while MODE = ASYNC is refused. -/
def Obligations.QueryInAsyncModeIsRefused : Prop :=
  ∀ (e : Byte) (s : State), s.mode = .async → exec (.query e) s = .refused .queryInAsyncMode

/-- R125 (the spec's decision D9), R127, R128, R133: under `resync` from CUR = 0, QUERY discards what stands before START,
takes one frame, answers by its opcode alone, and leaves the later bytes in the stream. The value of QEXP behind QACTIVE = 0 is
the model's choice (log 6), as is that exec runs the QUERY whole (log 8). -/
def Obligations.QueryResyncAnswersTheNextFrame : Prop :=
  ∀ (e : Byte) (junk frame rest : List Byte) (s : State), s.mode = .sync → s.fgAt = .idle → s.params.framing = .resync →
    s.cur = 0 → (∀ b ∈ junk, b ≠ 0x7E) → frame.length = frameSize s.params.variant → frame[0]? = some 0x7E →
    s.env.inbound = junk ++ frame ++ rest →
    ∃ (t : State) (op dh dl : Byte), exec (.query e) s = .next t ∧
      frame[3]? = some op ∧ frame[5]? = some dh ∧ frame[6]? = some dl ∧
      (∀ a, t.rxb.read a = if a < frameSize s.params.variant then frame[a]? else s.rxb.read a) ∧
      t = { s with rxb := t.rxb, qexp := e, qactive := false, env := { s.env with inbound := rest },
                   trace := s.trace ++ [.returned (queryResult e op dh dl)] }

/-- R125 (the spec's decision D9), R218: under `resync` from CUR = c > 0, QUERY completes the frame that was left
unfinished: the first c bytes are the old ones, and FRAME_SIZE - c bytes are taken whatever they are. The value of QEXP behind
QACTIVE = 0 is the model's choice (log 6), as is that exec runs the QUERY whole (log 8). -/
def Obligations.QueryResyncCompletesAnUnfinishedFrame : Prop :=
  ∀ (e : Byte) (more rest : List Byte) (s : State), StateInv s → s.mode = .sync → s.fgAt = .idle →
    s.params.framing = .resync → s.cur ≠ 0 → more.length + s.cur.toNat = frameSize s.params.variant →
    s.env.inbound = more ++ rest →
    ∃ (t : State) (op dh dl : Byte), exec (.query e) s = .next t ∧
      (∀ a, t.rxb.read a =
        if s.cur.toNat ≤ a ∧ a < frameSize s.params.variant then more[a - s.cur.toNat]? else s.rxb.read a) ∧
      t.rxb.read 3 = some op ∧ t.rxb.read 5 = some dh ∧ t.rxb.read 6 = some dl ∧
      t = { s with rxb := t.rxb, cur := 0, qexp := e, qactive := false, env := { s.env with inbound := rest },
                   trace := s.trace ++ [.returned (queryResult e op dh dl)] }

/-- R126 (the spec's decision D9): under `blind`, QUERY takes FRAME_SIZE bytes as they come: no byte is discarded, CUR is
neither read nor written. The value of QEXP behind QACTIVE = 0 is the model's choice (log 6), as is that exec runs the QUERY
whole (log 8). -/
def Obligations.QueryBlindTakesTheNextBytes : Prop :=
  ∀ (e : Byte) (frame rest : List Byte) (s : State), s.mode = .sync → s.fgAt = .idle → s.params.framing = .blind →
    frame.length = frameSize s.params.variant → s.env.inbound = frame ++ rest →
    ∃ (t : State) (op dh dl : Byte), exec (.query e) s = .next t ∧
      frame[3]? = some op ∧ frame[5]? = some dh ∧ frame[6]? = some dl ∧
      (∀ a, t.rxb.read a = if a < frameSize s.params.variant then frame[a]? else s.rxb.read a) ∧
      t = { s with rxb := t.rxb, qexp := e, qactive := false, env := { s.env with inbound := rest },
                   trace := s.trace ++ [.returned (queryResult e op dh dl)] }

/-- R126, as the spec derives it: on an aligned stream the two readings of SYNC_FRAMING give the same result and the same
state (QEXP behind QACTIVE = 0: log 6; exec runs the QUERY whole: log 8). -/
def Obligations.ReadingsAgreeOnAlignedStreams : Prop :=
  ∀ (e : Byte) (frame rest : List Byte) (s : State), s.mode = .sync → s.fgAt = .idle → s.cur = 0 →
    frame.length = frameSize s.params.variant → frame[0]? = some 0x7E → s.env.inbound = frame ++ rest →
    ∃ t1 t2 : State,
      exec (.query e) { s with params := { s.params with framing := .resync } } = .next t1 ∧
      exec (.query e) { s with params := { s.params with framing := .blind } } = .next t2 ∧
      t2 = { t1 with params := { t1.params with framing := .blind } }

/-- R130 (the spec's decision D12): with fewer bytes than the frame needs QUERY takes them all and stands in `recv` with
QACTIVE = 1; FG's turns change nothing there, which is the model's form of a blocked agent (log 19). -/
def Obligations.QueryStaysStuckWithoutBytes : Prop :=
  ∀ (e : Byte) (s : State), StateInv s → s.mode = .sync → s.fgAt = .idle →
    s.env.inbound.length + (if s.params.framing = .resync then s.cur.toNat else 0) < frameSize s.params.variant →
    ∃ t : State, exec (.query e) s = .next t ∧ t.qactive = true ∧ t.qexp = e ∧ t.env.inbound = [] ∧ t.trace = s.trace ∧
      FgBlocked t ∧ takeTurn .fg t = .next t ∧ takeTurn .fgInternal t = .next t

/-- R129 (the spec's decision D11): QUERY writes no Decoded Status field, whatever it receives, in its first run and in
every later step of FG inside it; nor does it touch TXB, TXBUSY or MODE. -/
def Obligations.QueryWritesNoStatus : Prop :=
  (∀ (e : Byte) (s t : State), exec (.query e) s = .next t →
    t.status = s.status ∧ t.txb = s.txb ∧ t.txbusy = s.txbusy ∧ t.mode = s.mode) ∧
  ∀ (n : Nat) (s t : State), s.fgAt = .recv n → fgStep s = .next t →
    t.status = s.status ∧ t.txb = s.txb ∧ t.txbusy = s.txbusy ∧ t.mode = s.mode

/-- R181 (the spec's decision D7): between operations SETMODE writes MODE and nothing else; inside one it is refused (R181's
"require"; the refusal is the model's, log 14). -/
def Obligations.SetmodeWritesModeOnly : Prop :=
  ∀ (m : Mode) (s : State),
    (s.txbusy = false → s.qactive = false → exec (.setmode m) s = .next { s with mode := m }) ∧
    (s.txbusy = true ∨ s.qactive = true → exec (.setmode m) s = .refused .foregroundBusy)

/-- R183 (the spec's decision D14): CLRSTAT clears the fields of the mask and nothing else. -/
def Obligations.ClrstatClearsTheMask : Prop :=
  ∀ (mask : BitVec 5) (s : State), ∃ t : State, exec (.clrstat mask) s = .next t ∧ t = { s with status := t.status } ∧
    t.status.ready = (if mask.getLsbD 0 = true then false else s.status.ready) ∧
    t.status.done = (if mask.getLsbD 1 = true then false else s.status.done) ∧
    t.status.ok = (if mask.getLsbD 2 = true then false else s.status.ok) ∧
    t.status.errcode = (if mask.getLsbD 3 = true then 0x00 else s.status.errcode) ∧
    t.status.source = (if mask.getLsbD 4 = true then 0x00 else s.status.source)

/-- R185 (the spec's decision D28): RDSTAT returns the field, flags as 0x00 or 0x01, and changes nothing; the indexes 5, 6
and 7 are refused. -/
def Obligations.RdstatReturnsTheField : Prop :=
  ∀ s : State,
    exec (.rdstat 0) s = .next { s with trace := s.trace ++ [.returned (.field (if s.status.ready then 1 else 0))] } ∧
    exec (.rdstat 1) s = .next { s with trace := s.trace ++ [.returned (.field (if s.status.done then 1 else 0))] } ∧
    exec (.rdstat 2) s = .next { s with trace := s.trace ++ [.returned (.field (if s.status.ok then 1 else 0))] } ∧
    exec (.rdstat 3) s = .next { s with trace := s.trace ++ [.returned (.field s.status.errcode)] } ∧
    exec (.rdstat 4) s = .next { s with trace := s.trace ++ [.returned (.field s.status.source)] } ∧
    ∀ f : BitVec 3, 5 ≤ f.toNat → exec (.rdstat f) s = .refused .badStatusField

/-- R198, R200: the receive interrupt is enabled exactly when MODE = ASYNC: on IRQ's turn the oldest waiting byte is handled
then by RXBYTE with DISPATCH as one step, which saves nothing and changes no mode; in SYNC mode no IRQ step occurs. That the
list of turns names IRQ (log 9), and that its turn in SYNC mode or without a byte answers the same state (log 19), is the
model's choice. -/
def Obligations.InterruptIsGatedByMode : Prop :=
  ∀ (s : State) (turns : List Turn), s.env.turns = .irq :: turns →
    (s.mode = .sync → step s = .next { s with env := { s.env with turns := turns } }) ∧
    (s.mode = .async → s.env.inbound = [] → step s = .next { s with env := { s.env with turns := turns } }) ∧
    ∀ (b : Byte) (rest : List Byte), s.mode = .async → s.env.inbound = b :: rest →
      step s = assemble (withFrame dispatch) b { s with env := { s.env with inbound := rest, turns := turns } } ∧
      ∀ t : State, step s = .next t → t = { s with
        rxb := t.rxb, cur := t.cur, status := t.status, env := { s.env with inbound := rest, turns := turns } }

/-- R13, R48, R204: a step by FG's turn `fg` between operations is exec of the decoded instruction, on the state without that
turn and that operation; by its turn `fgInternal` it is the operation's first transition, and exec is that transition and what
FG goes on to do; an RXBYTE or an inbound frame is none of FG's operations and is refused (log 21). That one step runs an
operation whole (log 8), and that FG moves with no turn named where IRQ has no byte to take (log 9), is the model's choice. -/
def Obligations.StepRunsTheDecodedOperation : Prop :=
  ∀ (s s' : State) (i : Instr),
    (Issues .fg s i s' → isForeground i = true → step s = exec i s') ∧
    (Issues .fgInternal s i s' → isForeground i = true →
      step s = startOperation i s' ∧ exec i s' = andThen (step s) fgContinue) ∧
    (Issues .fg s i s' ∨ Issues .fgInternal s i s' → isForeground i = false → step s = .refused .notForeground)

/-- The model's default: with no turn named, IRQ moves while it has a byte to take (log 9, R199). -/
def Obligations.StepWithoutTurnsLetsIrqPreempt : Prop :=
  ∀ (s : State) (b : Byte) (rest : List Byte), s.env.turns = [] → s.mode = .async → s.env.inbound = b :: rest →
    step s = exec (.rxbyte b) { s with env := { s.env with inbound := rest } }

/-- After reset, and after power-up from any state, every register has the value of R32 (the spec's own decision D6) and
what stands in the buffers has no value; power-up does not touch the configuration. -/
def Obligations.ResetLeavesTheStatedValues : Prop :=
  ∀ (s : State) (turns : List Turn), s.env.turns = .powerUp :: turns →
    ∃ t : State, step s = .next t ∧ t.params = s.params ∧ ∀ u, u = t ∨ u = State.reset →
      u.cur = 0 ∧ u.status = ⟨false, false, false, 0x00, 0x00⟩ ∧ u.mode = .sync ∧ u.txbusy = false ∧ u.qactive = false ∧
      ∀ a, u.txb.read a = none ∧ u.rxb.read a = none

/-- The invariants hold at reset (R32, R230). -/
def Obligations.InvariantsHoldAtReset : Prop :=
  StateInv State.reset ∧ StartInv State.reset

/-- R33 (a), (c) and R230, which the spec derives: every step keeps the invariant. -/
def Obligations.StepKeepsTheInvariant : Prop :=
  ∀ s t : State, StateInv s → step s = .next t → StateInv t

/-- R33 (b), which the spec derives: with SYNC_FRAMING = `resync`, every step keeps "if CUR > 0 then RXB[0] = START". -/
def Obligations.StepKeepsStartAtTheHead : Prop :=
  ∀ s t : State, StartInv s → step s = .next t → StartInv t

/-- R189, and R36, which the spec derives: from a state that meets the invariant no step faults. -/
def Obligations.NoStepFaults : Prop :=
  ∀ (s : State) (f : Fault), StateInv s → step s ≠ .fault f

/-- R7: no step writes the configuration. -/
def Obligations.ConfigurationIsNeverWritten : Prop :=
  ∀ s t : State, step s = .next t → t.params = s.params

/-- R25 (the spec's decision D7): MODE is written by SETMODE and reset only. -/
def Obligations.ModeIsWrittenBySetmodeOrReset : Prop :=
  ∀ s t : State, step s = .next t → t.mode ≠ s.mode →
    PowersUp s ∨ ∃ m, NextOperation s (.setmode m) ∧ t.mode = m

/-- R122 (the spec's decisions D14, D15): a flag returns to 0 by reset and by a CLRSTAT whose mask has its bit, and by
nothing else. -/
def Obligations.FlagsFallByClrstatOrReset : Prop :=
  ∀ s t : State, step s = .next t →
    (s.status.ready = true → t.status.ready = false →
      PowersUp s ∨ ∃ mask, NextOperation s (.clrstat mask) ∧ mask.getLsbD 0 = true) ∧
    (s.status.done = true → t.status.done = false →
      PowersUp s ∨ ∃ mask, NextOperation s (.clrstat mask) ∧ mask.getLsbD 1 = true) ∧
    (s.status.ok = true → t.status.ok = false →
      PowersUp s ∨ ∃ mask, NextOperation s (.clrstat mask) ∧ mask.getLsbD 2 = true)

/-- R204, with R15 to R17: which instruction writes which state. TXB only SEND; RXB and CUR only RXBYTE and QUERY; the
Decoded Status only RXBYTE, an inbound frame and CLRSTAT. -/
def Obligations.InstructionsWriteOnlyTheirState : Prop :=
  ∀ (i : Instr) (s t : State), exec i s = .next t →
    (sendOpcode i = none → t.txb = s.txb ∧ t.txbusy = s.txbusy) ∧
    ((∀ b, i ≠ .rxbyte b) → (∀ e, i ≠ .query e) → t.rxb = s.rxb ∧ t.cur = s.cur) ∧
    ((∀ b, i ≠ .rxbyte b) → (∀ mask, i ≠ .clrstat mask) → (encode i).port ≠ .inbound → t.status = s.status) ∧
    ((∀ m, i ≠ .setmode m) → t.mode = s.mode) ∧
    ((∀ e, i ≠ .query e) → (encode i).port ≠ .inbound → t.qactive = s.qactive ∧ t.qexp = s.qexp)

/-- R104, and R112, which the spec derives: without inbound bytes nothing returns CUR to 0 but reset: the cursor stalls. -/
def Obligations.CursorStallsWithoutBytes : Prop :=
  ∀ s t : State, step s = .next t → ¬ PowersUp s → s.env.inbound = [] →
    t.cur = s.cur ∧ t.rxb = s.rxb

/-- R194: a blocked agent is not a finished run: FG's turns change nothing, the state is no end state, a stuck SEND leaves
TXBUSY = 1 and a stuck QUERY leaves QACTIVE = 1; the receive interrupt is never stuck. That a turn of a blocked FG answers the
same state is the model's choice (log 19), and what an end state is, R229's, is the spec's decision D31. -/
def Obligations.StuckIsNotEnded : Prop :=
  ∀ s : State, StateInv s → FgBlocked s →
    takeTurn .fg s = .next s ∧ takeTurn .fgInternal s = .next s ∧ ¬ Ended s ∧
    ((∃ i, s.fgAt = .sendCall i) ∨ s.fgAt = .delayWait → s.txbusy = true) ∧
    (∀ n, s.fgAt = .recv n → s.qactive = true) ∧
    (s.mode = .async → ∀ b : Byte, ∃ t : State, exec (.rxbyte b) s = .next t)

/-- The model's environment (log 9, log 10, log 11), after R38, R199, R207, R209: the turns of ENV and DLY: a byte arrives
behind those that wait, the sink and the delay become ready or not; nothing else changes. -/
def Obligations.EnvironmentTurns : Prop :=
  ∀ (s : State) (b : Byte) (r : Bool),
    takeTurn (.arrive b) s = .next { s with env := { s.env with inbound := s.env.inbound ++ [b] } } ∧
    takeTurn (.sink r) s = .next { s with env := { s.env with sinkReady := r } } ∧
    takeTurn (.dly r) s = .next { s with env := { s.env with delayReady := r } }

/-- R13: FG runs one operation at a time: a SEND, named command, outbound query or QUERY issued inside another operation,
where R93 and R131 do not apply, is refused and nothing starts (the refusal is the model's, log 14). -/
def Obligations.OperationsDoNotOverlap : Prop :=
  ∀ s : State, s.fgAt ≠ .idle →
    (∀ (i : Instr) (op : Byte), sendOpcode i = some op → s.txbusy = false → exec i s = .refused .foregroundBusy) ∧
    ∀ e : Byte, s.mode = .sync → exec (.query e) s = .refused .foregroundBusy

/-- A transaction that is no instruction is refused by the name of the reason when FG issues it (R178, log 15). -/
def Obligations.UndecodableTransactionsAreRefused : Prop :=
  ∀ (s : State) (t : Txn) (rest : List Txn) (turns : List Turn) (e : DecodeError), s.fgAt = .idle →
    s.env.ops = t :: rest → s.env.turns = .fg :: turns → decode t = .error e → step s = .refused (.undecodable e)
end

