-- ==== Sys2Proof/Laws/Memory.lean ====
section
/-! SUPPORT. The laws of the byte memories: a read after a write, the canonical form, and runs of bytes. -/

namespace Sys2Proof.Machine

@[simp] theorem Memory.read_nil (i : Nat) : Memory.read [] i = none := rfl

@[simp] theorem Memory.read_write_same (m : Memory) (i : Nat) (v : Byte) : (Memory.write m i v).read i = some v := by
  induction m with
  | nil => simp [Memory.write, Memory.read]
  | cons c m ih =>
    obtain ⟨a, b⟩ := c
    simp only [Memory.write]
    split
    · simp [Memory.read]
    · split
      · simp [Memory.read]
      · rw [Memory.read, if_neg (by omega), ih]

theorem Memory.read_write_other {m : Memory} {i j : Nat} {v : Byte} (h : j ≠ i) :
    (Memory.write m i v).read j = m.read j := by
  induction m with
  | nil => simp [Memory.write, Memory.read, Ne.symm h]
  | cons c m ih =>
    obtain ⟨a, b⟩ := c
    simp only [Memory.write]
    split
    · rw [Memory.read, if_neg (Ne.symm h)]
    · split
      · subst a; simp [Memory.read, Ne.symm h]
      · rw [Memory.read, ih, Memory.read]

/-- A read after a write to any index: the value written there, the old byte elsewhere. -/
theorem Memory.read_write (m : Memory) (i j : Nat) (v : Byte) :
    (Memory.write m i v).read j = if j = i then some v else m.read j := by
  split
  · next h => rw [h, Memory.read_write_same]
  · next h => exact Memory.read_write_other h

theorem Memory.wfFrom_mono {m : Memory} {lo lo' : Nat} (h : lo' ≤ lo) (w : Memory.wfFrom lo m = true) :
    Memory.wfFrom lo' m = true := by
  cases m with
  | nil => rfl
  | cons c m =>
    simp only [Memory.wfFrom, Bool.and_eq_true, decide_eq_true_eq] at w ⊢
    exact ⟨⟨by omega, w.1.2⟩, w.2⟩

theorem Memory.wfFrom_write {m : Memory} {lo i : Nat} {v : Byte} (w : Memory.wfFrom lo m = true) (h : lo ≤ i)
    (hi : i < BUF_SIZE) : Memory.wfFrom lo (Memory.write m i v) = true := by
  induction m generalizing lo with
  | nil => simp [Memory.write, Memory.wfFrom, h, hi]
  | cons c m ih =>
    obtain ⟨a, b⟩ := c
    simp only [Memory.wfFrom, Bool.and_eq_true, decide_eq_true_eq] at w
    simp only [Memory.write]
    split
    · simp only [Memory.wfFrom, Bool.and_eq_true, decide_eq_true_eq]
      exact ⟨⟨h, hi⟩, ⟨by omega, w.1.2⟩, w.2⟩
    · split
      · subst a; simp only [Memory.wfFrom, Bool.and_eq_true, decide_eq_true_eq]; exact ⟨⟨h, hi⟩, w.2⟩
      · simp only [Memory.wfFrom, Bool.and_eq_true, decide_eq_true_eq]
        exact ⟨w.1, ih w.2 (by omega)⟩

/-- Every write of an index that exists keeps the canonical form. -/
theorem Memory.wf_write {m : Memory} {i : Nat} {v : Byte} (w : m.wf = true) (hi : i < BUF_SIZE) :
    (Memory.write m i v).wf = true :=
  Memory.wfFrom_write w (Nat.zero_le i) hi

/-- A run of bytes that fits keeps the canonical form. -/
theorem Memory.wf_writeFrom {m : Memory} {i : Nat} {vs : List Byte} (w : m.wf = true) (h : i + vs.length ≤ BUF_SIZE) :
    (Memory.writeFrom m i vs).wf = true := by
  induction vs generalizing m i with
  | nil => exact w
  | cons v vs ih =>
    simp only [List.length_cons] at h
    exact ih (Memory.wf_write w (by omega)) (by omega)

/-- A read after a run of bytes is written from `i`. -/
theorem Memory.read_writeFrom (m : Memory) (i j : Nat) (vs : List Byte) :
    (Memory.writeFrom m i vs).read j = if i ≤ j ∧ j < i + vs.length then vs[j - i]? else m.read j := by
  induction vs generalizing m i with
  | nil => simp [Memory.writeFrom]
  | cons v vs ih =>
    rw [Memory.writeFrom, ih, Memory.read_write]
    by_cases h : j = i
    · subst h; simp
    · by_cases h2 : i + 1 ≤ j ∧ j < i + 1 + vs.length
      · have h3 : j - i = (j - (i + 1)) + 1 := by omega
        rw [if_pos h2, if_pos (by simp only [List.length_cons]; omega), h3, List.getElem?_cons_succ]
      · rw [if_neg h2, if_neg h, if_neg (by simp only [List.length_cons]; omega)]

/-- Reading back a run of bytes just written. -/
theorem Memory.readFrom_of_read {m : Memory} {i : Nat} {vs : List Byte}
    (h : ∀ k, k < vs.length → m.read (i + k) = vs[k]?) : m.readFrom i vs.length = some vs := by
  induction vs generalizing i with
  | nil => rfl
  | cons v vs ih =>
    have h0 : m.read i = some v := by simpa using h 0 (by simp)
    have h1 : m.readFrom (i + 1) vs.length = some vs := ih fun k hk => by
      have := h (k + 1) (by simp; omega)
      rw [List.getElem?_cons_succ] at this
      rw [← this]; congr 1; omega
    simp [Memory.readFrom, h0, h1]

theorem Memory.readFrom_writeFrom (m : Memory) (vs : List Byte) :
    (Memory.writeFrom m 0 vs).readFrom 0 vs.length = some vs :=
  Memory.readFrom_of_read fun k hk => by simp [Memory.read_writeFrom, hk]

/-- A run of bytes that all have values can be read. -/
theorem Memory.readFrom_isSome {m : Memory} {i n : Nat} (h : ∀ k, i ≤ k → k < i + n → (m.read k).isSome = true) :
    ∃ vs, m.readFrom i n = some vs := by
  induction n generalizing i with
  | zero => exact ⟨[], rfl⟩
  | succ n ih =>
    obtain ⟨b, hb⟩ := Option.isSome_iff_exists.mp (h i (by omega) (by omega))
    obtain ⟨vs, hv⟩ := ih (i := i + 1) fun k h1 h2 => h k (by omega) (by omega)
    exact ⟨b :: vs, by simp [Memory.readFrom, hb, hv]⟩

theorem Memory.Holds.write {m : Memory} {n i : Nat} {v : Byte} (h : m.Holds n) : (Memory.write m i v).Holds n :=
  fun k hk => by
    rw [Memory.read_write]
    split
    · rfl
    · exact h k hk

theorem Memory.Holds.write_next {m : Memory} {n : Nat} {v : Byte} (h : m.Holds n) :
    (Memory.write m n v).Holds (n + 1) := fun k hk => by
  rw [Memory.read_write]
  split
  · rfl
  · exact h k (by omega)

theorem Memory.Holds.read {m : Memory} {n i : Nat} (h : m.Holds n) (hi : i < n) : ∃ b, m.read i = some b :=
  Option.isSome_iff_exists.mp (h i hi)

theorem Memory.holds_writeFrom (m : Memory) (vs : List Byte) : (Memory.writeFrom m 0 vs).Holds vs.length := fun k hk => by
  simp [Memory.read_writeFrom, hk]

end Sys2Proof.Machine
end

