-- ==== Sys2Proof/Laws/State.lean ====
section
/-! SUPPORT. One lemma per field and named update of State. -/

namespace Sys2Proof.Machine

@[simp] theorem State.setTxb_params (s : State) (m : Memory) : (s.setTxb m).params = s.params := rfl
@[simp] theorem State.setTxb_txb (s : State) (m : Memory) : (s.setTxb m).txb = m := rfl
@[simp] theorem State.setTxb_rxb (s : State) (m : Memory) : (s.setTxb m).rxb = s.rxb := rfl
@[simp] theorem State.setTxb_cur (s : State) (m : Memory) : (s.setTxb m).cur = s.cur := rfl
@[simp] theorem State.setTxb_status (s : State) (m : Memory) : (s.setTxb m).status = s.status := rfl
@[simp] theorem State.setTxb_mode (s : State) (m : Memory) : (s.setTxb m).mode = s.mode := rfl
@[simp] theorem State.setTxb_txbusy (s : State) (m : Memory) : (s.setTxb m).txbusy = s.txbusy := rfl
@[simp] theorem State.setTxb_qactive (s : State) (m : Memory) : (s.setTxb m).qactive = s.qactive := rfl
@[simp] theorem State.setTxb_qexp (s : State) (m : Memory) : (s.setTxb m).qexp = s.qexp := rfl
@[simp] theorem State.setTxb_fgAt (s : State) (m : Memory) : (s.setTxb m).fgAt = s.fgAt := rfl
@[simp] theorem State.setTxb_env (s : State) (m : Memory) : (s.setTxb m).env = s.env := rfl
@[simp] theorem State.setTxb_trace (s : State) (m : Memory) : (s.setTxb m).trace = s.trace := rfl

@[simp] theorem State.setRxb_params (s : State) (m : Memory) : (s.setRxb m).params = s.params := rfl
@[simp] theorem State.setRxb_txb (s : State) (m : Memory) : (s.setRxb m).txb = s.txb := rfl
@[simp] theorem State.setRxb_rxb (s : State) (m : Memory) : (s.setRxb m).rxb = m := rfl
@[simp] theorem State.setRxb_cur (s : State) (m : Memory) : (s.setRxb m).cur = s.cur := rfl
@[simp] theorem State.setRxb_status (s : State) (m : Memory) : (s.setRxb m).status = s.status := rfl
@[simp] theorem State.setRxb_mode (s : State) (m : Memory) : (s.setRxb m).mode = s.mode := rfl
@[simp] theorem State.setRxb_txbusy (s : State) (m : Memory) : (s.setRxb m).txbusy = s.txbusy := rfl
@[simp] theorem State.setRxb_qactive (s : State) (m : Memory) : (s.setRxb m).qactive = s.qactive := rfl
@[simp] theorem State.setRxb_qexp (s : State) (m : Memory) : (s.setRxb m).qexp = s.qexp := rfl
@[simp] theorem State.setRxb_fgAt (s : State) (m : Memory) : (s.setRxb m).fgAt = s.fgAt := rfl
@[simp] theorem State.setRxb_env (s : State) (m : Memory) : (s.setRxb m).env = s.env := rfl
@[simp] theorem State.setRxb_trace (s : State) (m : Memory) : (s.setRxb m).trace = s.trace := rfl

@[simp] theorem State.setCur_params (s : State) (c : BitVec CUR_BITS) : (s.setCur c).params = s.params := rfl
@[simp] theorem State.setCur_txb (s : State) (c : BitVec CUR_BITS) : (s.setCur c).txb = s.txb := rfl
@[simp] theorem State.setCur_rxb (s : State) (c : BitVec CUR_BITS) : (s.setCur c).rxb = s.rxb := rfl
@[simp] theorem State.setCur_cur (s : State) (c : BitVec CUR_BITS) : (s.setCur c).cur = c := rfl
@[simp] theorem State.setCur_status (s : State) (c : BitVec CUR_BITS) : (s.setCur c).status = s.status := rfl
@[simp] theorem State.setCur_mode (s : State) (c : BitVec CUR_BITS) : (s.setCur c).mode = s.mode := rfl
@[simp] theorem State.setCur_txbusy (s : State) (c : BitVec CUR_BITS) : (s.setCur c).txbusy = s.txbusy := rfl
@[simp] theorem State.setCur_qactive (s : State) (c : BitVec CUR_BITS) : (s.setCur c).qactive = s.qactive := rfl
@[simp] theorem State.setCur_qexp (s : State) (c : BitVec CUR_BITS) : (s.setCur c).qexp = s.qexp := rfl
@[simp] theorem State.setCur_fgAt (s : State) (c : BitVec CUR_BITS) : (s.setCur c).fgAt = s.fgAt := rfl
@[simp] theorem State.setCur_env (s : State) (c : BitVec CUR_BITS) : (s.setCur c).env = s.env := rfl
@[simp] theorem State.setCur_trace (s : State) (c : BitVec CUR_BITS) : (s.setCur c).trace = s.trace := rfl

@[simp] theorem State.setStatus_params (s : State) (st : Status) : (s.setStatus st).params = s.params := rfl
@[simp] theorem State.setStatus_txb (s : State) (st : Status) : (s.setStatus st).txb = s.txb := rfl
@[simp] theorem State.setStatus_rxb (s : State) (st : Status) : (s.setStatus st).rxb = s.rxb := rfl
@[simp] theorem State.setStatus_cur (s : State) (st : Status) : (s.setStatus st).cur = s.cur := rfl
@[simp] theorem State.setStatus_status (s : State) (st : Status) : (s.setStatus st).status = st := rfl
@[simp] theorem State.setStatus_mode (s : State) (st : Status) : (s.setStatus st).mode = s.mode := rfl
@[simp] theorem State.setStatus_txbusy (s : State) (st : Status) : (s.setStatus st).txbusy = s.txbusy := rfl
@[simp] theorem State.setStatus_qactive (s : State) (st : Status) : (s.setStatus st).qactive = s.qactive := rfl
@[simp] theorem State.setStatus_qexp (s : State) (st : Status) : (s.setStatus st).qexp = s.qexp := rfl
@[simp] theorem State.setStatus_fgAt (s : State) (st : Status) : (s.setStatus st).fgAt = s.fgAt := rfl
@[simp] theorem State.setStatus_env (s : State) (st : Status) : (s.setStatus st).env = s.env := rfl
@[simp] theorem State.setStatus_trace (s : State) (st : Status) : (s.setStatus st).trace = s.trace := rfl

@[simp] theorem State.setMode_params (s : State) (m : Mode) : (s.setMode m).params = s.params := rfl
@[simp] theorem State.setMode_txb (s : State) (m : Mode) : (s.setMode m).txb = s.txb := rfl
@[simp] theorem State.setMode_rxb (s : State) (m : Mode) : (s.setMode m).rxb = s.rxb := rfl
@[simp] theorem State.setMode_cur (s : State) (m : Mode) : (s.setMode m).cur = s.cur := rfl
@[simp] theorem State.setMode_status (s : State) (m : Mode) : (s.setMode m).status = s.status := rfl
@[simp] theorem State.setMode_mode (s : State) (m : Mode) : (s.setMode m).mode = m := rfl
@[simp] theorem State.setMode_txbusy (s : State) (m : Mode) : (s.setMode m).txbusy = s.txbusy := rfl
@[simp] theorem State.setMode_qactive (s : State) (m : Mode) : (s.setMode m).qactive = s.qactive := rfl
@[simp] theorem State.setMode_qexp (s : State) (m : Mode) : (s.setMode m).qexp = s.qexp := rfl
@[simp] theorem State.setMode_fgAt (s : State) (m : Mode) : (s.setMode m).fgAt = s.fgAt := rfl
@[simp] theorem State.setMode_env (s : State) (m : Mode) : (s.setMode m).env = s.env := rfl
@[simp] theorem State.setMode_trace (s : State) (m : Mode) : (s.setMode m).trace = s.trace := rfl

@[simp] theorem State.setTxbusy_params (s : State) (b : Bool) : (s.setTxbusy b).params = s.params := rfl
@[simp] theorem State.setTxbusy_txb (s : State) (b : Bool) : (s.setTxbusy b).txb = s.txb := rfl
@[simp] theorem State.setTxbusy_rxb (s : State) (b : Bool) : (s.setTxbusy b).rxb = s.rxb := rfl
@[simp] theorem State.setTxbusy_cur (s : State) (b : Bool) : (s.setTxbusy b).cur = s.cur := rfl
@[simp] theorem State.setTxbusy_status (s : State) (b : Bool) : (s.setTxbusy b).status = s.status := rfl
@[simp] theorem State.setTxbusy_mode (s : State) (b : Bool) : (s.setTxbusy b).mode = s.mode := rfl
@[simp] theorem State.setTxbusy_txbusy (s : State) (b : Bool) : (s.setTxbusy b).txbusy = b := rfl
@[simp] theorem State.setTxbusy_qactive (s : State) (b : Bool) : (s.setTxbusy b).qactive = s.qactive := rfl
@[simp] theorem State.setTxbusy_qexp (s : State) (b : Bool) : (s.setTxbusy b).qexp = s.qexp := rfl
@[simp] theorem State.setTxbusy_fgAt (s : State) (b : Bool) : (s.setTxbusy b).fgAt = s.fgAt := rfl
@[simp] theorem State.setTxbusy_env (s : State) (b : Bool) : (s.setTxbusy b).env = s.env := rfl
@[simp] theorem State.setTxbusy_trace (s : State) (b : Bool) : (s.setTxbusy b).trace = s.trace := rfl

@[simp] theorem State.setQactive_params (s : State) (b : Bool) : (s.setQactive b).params = s.params := rfl
@[simp] theorem State.setQactive_txb (s : State) (b : Bool) : (s.setQactive b).txb = s.txb := rfl
@[simp] theorem State.setQactive_rxb (s : State) (b : Bool) : (s.setQactive b).rxb = s.rxb := rfl
@[simp] theorem State.setQactive_cur (s : State) (b : Bool) : (s.setQactive b).cur = s.cur := rfl
@[simp] theorem State.setQactive_status (s : State) (b : Bool) : (s.setQactive b).status = s.status := rfl
@[simp] theorem State.setQactive_mode (s : State) (b : Bool) : (s.setQactive b).mode = s.mode := rfl
@[simp] theorem State.setQactive_txbusy (s : State) (b : Bool) : (s.setQactive b).txbusy = s.txbusy := rfl
@[simp] theorem State.setQactive_qactive (s : State) (b : Bool) : (s.setQactive b).qactive = b := rfl
@[simp] theorem State.setQactive_qexp (s : State) (b : Bool) : (s.setQactive b).qexp = s.qexp := rfl
@[simp] theorem State.setQactive_fgAt (s : State) (b : Bool) : (s.setQactive b).fgAt = s.fgAt := rfl
@[simp] theorem State.setQactive_env (s : State) (b : Bool) : (s.setQactive b).env = s.env := rfl
@[simp] theorem State.setQactive_trace (s : State) (b : Bool) : (s.setQactive b).trace = s.trace := rfl

@[simp] theorem State.setQexp_params (s : State) (e : Byte) : (s.setQexp e).params = s.params := rfl
@[simp] theorem State.setQexp_txb (s : State) (e : Byte) : (s.setQexp e).txb = s.txb := rfl
@[simp] theorem State.setQexp_rxb (s : State) (e : Byte) : (s.setQexp e).rxb = s.rxb := rfl
@[simp] theorem State.setQexp_cur (s : State) (e : Byte) : (s.setQexp e).cur = s.cur := rfl
@[simp] theorem State.setQexp_status (s : State) (e : Byte) : (s.setQexp e).status = s.status := rfl
@[simp] theorem State.setQexp_mode (s : State) (e : Byte) : (s.setQexp e).mode = s.mode := rfl
@[simp] theorem State.setQexp_txbusy (s : State) (e : Byte) : (s.setQexp e).txbusy = s.txbusy := rfl
@[simp] theorem State.setQexp_qactive (s : State) (e : Byte) : (s.setQexp e).qactive = s.qactive := rfl
@[simp] theorem State.setQexp_qexp (s : State) (e : Byte) : (s.setQexp e).qexp = e := rfl
@[simp] theorem State.setQexp_fgAt (s : State) (e : Byte) : (s.setQexp e).fgAt = s.fgAt := rfl
@[simp] theorem State.setQexp_env (s : State) (e : Byte) : (s.setQexp e).env = s.env := rfl
@[simp] theorem State.setQexp_trace (s : State) (e : Byte) : (s.setQexp e).trace = s.trace := rfl

@[simp] theorem State.setFgAt_params (s : State) (p : FgPoint) : (s.setFgAt p).params = s.params := rfl
@[simp] theorem State.setFgAt_txb (s : State) (p : FgPoint) : (s.setFgAt p).txb = s.txb := rfl
@[simp] theorem State.setFgAt_rxb (s : State) (p : FgPoint) : (s.setFgAt p).rxb = s.rxb := rfl
@[simp] theorem State.setFgAt_cur (s : State) (p : FgPoint) : (s.setFgAt p).cur = s.cur := rfl
@[simp] theorem State.setFgAt_status (s : State) (p : FgPoint) : (s.setFgAt p).status = s.status := rfl
@[simp] theorem State.setFgAt_mode (s : State) (p : FgPoint) : (s.setFgAt p).mode = s.mode := rfl
@[simp] theorem State.setFgAt_txbusy (s : State) (p : FgPoint) : (s.setFgAt p).txbusy = s.txbusy := rfl
@[simp] theorem State.setFgAt_qactive (s : State) (p : FgPoint) : (s.setFgAt p).qactive = s.qactive := rfl
@[simp] theorem State.setFgAt_qexp (s : State) (p : FgPoint) : (s.setFgAt p).qexp = s.qexp := rfl
@[simp] theorem State.setFgAt_fgAt (s : State) (p : FgPoint) : (s.setFgAt p).fgAt = p := rfl
@[simp] theorem State.setFgAt_env (s : State) (p : FgPoint) : (s.setFgAt p).env = s.env := rfl
@[simp] theorem State.setFgAt_trace (s : State) (p : FgPoint) : (s.setFgAt p).trace = s.trace := rfl

@[simp] theorem State.setEnv_params (s : State) (e : Env) : (s.setEnv e).params = s.params := rfl
@[simp] theorem State.setEnv_txb (s : State) (e : Env) : (s.setEnv e).txb = s.txb := rfl
@[simp] theorem State.setEnv_rxb (s : State) (e : Env) : (s.setEnv e).rxb = s.rxb := rfl
@[simp] theorem State.setEnv_cur (s : State) (e : Env) : (s.setEnv e).cur = s.cur := rfl
@[simp] theorem State.setEnv_status (s : State) (e : Env) : (s.setEnv e).status = s.status := rfl
@[simp] theorem State.setEnv_mode (s : State) (e : Env) : (s.setEnv e).mode = s.mode := rfl
@[simp] theorem State.setEnv_txbusy (s : State) (e : Env) : (s.setEnv e).txbusy = s.txbusy := rfl
@[simp] theorem State.setEnv_qactive (s : State) (e : Env) : (s.setEnv e).qactive = s.qactive := rfl
@[simp] theorem State.setEnv_qexp (s : State) (e : Env) : (s.setEnv e).qexp = s.qexp := rfl
@[simp] theorem State.setEnv_fgAt (s : State) (e : Env) : (s.setEnv e).fgAt = s.fgAt := rfl
@[simp] theorem State.setEnv_env (s : State) (e : Env) : (s.setEnv e).env = e := rfl
@[simp] theorem State.setEnv_trace (s : State) (e : Env) : (s.setEnv e).trace = s.trace := rfl

@[simp] theorem State.record_params (s : State) (e : Event) : (s.record e).params = s.params := rfl
@[simp] theorem State.record_txb (s : State) (e : Event) : (s.record e).txb = s.txb := rfl
@[simp] theorem State.record_rxb (s : State) (e : Event) : (s.record e).rxb = s.rxb := rfl
@[simp] theorem State.record_cur (s : State) (e : Event) : (s.record e).cur = s.cur := rfl
@[simp] theorem State.record_status (s : State) (e : Event) : (s.record e).status = s.status := rfl
@[simp] theorem State.record_mode (s : State) (e : Event) : (s.record e).mode = s.mode := rfl
@[simp] theorem State.record_txbusy (s : State) (e : Event) : (s.record e).txbusy = s.txbusy := rfl
@[simp] theorem State.record_qactive (s : State) (e : Event) : (s.record e).qactive = s.qactive := rfl
@[simp] theorem State.record_qexp (s : State) (e : Event) : (s.record e).qexp = s.qexp := rfl
@[simp] theorem State.record_fgAt (s : State) (e : Event) : (s.record e).fgAt = s.fgAt := rfl
@[simp] theorem State.record_env (s : State) (e : Event) : (s.record e).env = s.env := rfl
@[simp] theorem State.record_trace (s : State) (e : Event) : (s.record e).trace = s.trace ++ [e] := rfl

@[simp] theorem andThen_next (s : State) (k : State → Answer) : andThen (.next s) k = k s := rfl
@[simp] theorem andThen_fault (f : Fault) (k : State → Answer) : andThen (.fault f) k = .fault f := rfl
@[simp] theorem andThen_refused (r : Refusal) (k : State → Answer) : andThen (.refused r) k = .refused r := rfl

/-- A composite operation answers a next state only through next states of both parts. -/
theorem andThen_eq_next {a : Answer} {k : State → Answer} {t : State} :
    andThen a k = .next t ↔ ∃ s, a = .next s ∧ k s = .next t := by
  cases a <;> simp

theorem andThen_eq_fault {a : Answer} {k : State → Answer} {f : Fault} :
    andThen a k = .fault f ↔ a = .fault f ∨ ∃ s, a = .next s ∧ k s = .fault f := by
  cases a <;> simp

end Sys2Proof.Machine
end

