-- ==== Sys2Proof/Laws/Ops.lean ====
section
/-! SUPPORT. One lemma per shared operation: everything it can do. -/

namespace Sys2Proof.Machine

theorem frameSize_cases (v : Variant) : frameSize v = 10 ∧ v ≠ .none ∨ frameSize v = 8 ∧ v = .none := by
  cases v <;> simp [frameSize, hasCk]

theorem frameSize_bounds (v : Variant) : 8 ≤ frameSize v ∧ frameSize v ≤ BUF_SIZE := by
  cases v <;> simp [frameSize, hasCk, BUF_SIZE]

/-- CUR has 4 bits (R17). -/
theorem cur_lt (c : BitVec CUR_BITS) : c.toNat < 16 := c.isLt

/-- CUR advances without wrapping wherever a byte can be stored (R29, R100). -/
theorem cur_advance {c : BitVec CUR_BITS} (h : c.toNat < BUF_SIZE) : (c + 1).toNat = c.toNat + 1 := by
  simp only [BUF_SIZE] at h
  have h1 : (1 : BitVec CUR_BITS).toNat = 1 := rfl
  have h2 : 2 ^ CUR_BITS = 16 := rfl
  rw [BitVec.toNat_add, h1, h2]
  omega

@[simp] theorem storeAndAdvance_rxb (b : Byte) (s : State) :
    (storeAndAdvance b s).rxb = s.rxb.write s.cur.toNat b := rfl
@[simp] theorem storeAndAdvance_cur (b : Byte) (s : State) : (storeAndAdvance b s).cur = s.cur + 1 := rfl
@[simp] theorem storeAndAdvance_params (b : Byte) (s : State) : (storeAndAdvance b s).params = s.params := rfl
@[simp] theorem storeAndAdvance_status (b : Byte) (s : State) : (storeAndAdvance b s).status = s.status := rfl
@[simp] theorem storeAndAdvance_mode (b : Byte) (s : State) : (storeAndAdvance b s).mode = s.mode := rfl
@[simp] theorem storeAndAdvance_qexp (b : Byte) (s : State) : (storeAndAdvance b s).qexp = s.qexp := rfl
@[simp] theorem storeAndAdvance_txb (b : Byte) (s : State) : (storeAndAdvance b s).txb = s.txb := rfl
@[simp] theorem storeAndAdvance_env (b : Byte) (s : State) : (storeAndAdvance b s).env = s.env := rfl
@[simp] theorem storeAndAdvance_fgAt (b : Byte) (s : State) : (storeAndAdvance b s).fgAt = s.fgAt := rfl
@[simp] theorem storeAndAdvance_txbusy (b : Byte) (s : State) : (storeAndAdvance b s).txbusy = s.txbusy := rfl
@[simp] theorem storeAndAdvance_qactive (b : Byte) (s : State) : (storeAndAdvance b s).qactive = s.qactive := rfl
@[simp] theorem storeAndAdvance_trace (b : Byte) (s : State) : (storeAndAdvance b s).trace = s.trace := rfl

/-- A use of the completed frame goes on exactly where OPCODE, DATA_HIGH and DATA_LOW have values. -/
theorem withFrame_eq_next {k : Byte → Byte → Byte → State → State} {s t : State} :
    withFrame k s = .next t ↔
      ∃ op dh dl, s.rxb.read 3 = some op ∧ s.rxb.read 5 = some dh ∧ s.rxb.read 6 = some dl ∧ t = k op dh dl s := by
  unfold withFrame
  split
  · next h3 h5 h6 => simp [h3, h5, h6, eq_comm]
  · next h =>
    constructor
    · intro h'; cases h'
    · rintro ⟨op, dh, dl, h3, h5, h6, -⟩
      exact absurd h6 (h op dh dl h3 h5)

theorem withFrame_of_read {k : Byte → Byte → Byte → State → State} {s : State} {op dh dl : Byte}
    (h3 : s.rxb.read 3 = some op) (h5 : s.rxb.read 5 = some dh) (h6 : s.rxb.read 6 = some dl) :
    withFrame k s = .next (k op dh dl s) := by
  simp [withFrame, h3, h5, h6]

/-- A frame of which every byte has a value can be used (R33 (c)). -/
theorem withFrame_of_holds {k : Byte → Byte → Byte → State → State} {s : State}
    (h : s.rxb.Holds (frameSize s.params.variant)) : ∃ op dh dl, s.rxb.read 3 = some op ∧ s.rxb.read 5 = some dh ∧
      s.rxb.read 6 = some dl ∧ withFrame k s = .next (k op dh dl s) := by
  have hb := (frameSize_bounds s.params.variant).1
  obtain ⟨op, h3⟩ := h.read (i := 3) (by omega)
  obtain ⟨dh, h5⟩ := h.read (i := 5) (by omega)
  obtain ⟨dl, h6⟩ := h.read (i := 6) (by omega)
  exact ⟨op, dh, dl, h3, h5, h6, withFrame_of_read h3 h5 h6⟩

/-- Everything RXBYTE can do when it answers a next state (R97): discard, store and advance, completion. -/
theorem assemble_cases {k : State → Answer} {b : Byte} {s t : State} (h : assemble k b s = .next t) :
    (s.cur = 0 ∧ b ≠ START ∧ t = s) ∨
    ((s.cur = 0 → b = START) ∧ s.cur.toNat < BUF_SIZE ∧ s.cur.toNat + 1 ≠ frameSize s.params.variant ∧
      t = storeAndAdvance b s) ∨
    ((s.cur = 0 → b = START) ∧ s.cur.toNat < BUF_SIZE ∧ s.cur.toNat + 1 = frameSize s.params.variant ∧
      ∃ u, k (storeAndAdvance b s) = .next u ∧ t = u.setCur 0) := by
  unfold assemble at h
  split at h
  · next hc => injection h with h; exact .inl ⟨hc.1, hc.2, h.symm⟩
  · next hc =>
    have hs : s.cur = 0 → b = START := fun h0 => by
      by_cases hb : b = START
      · exact hb
      · exact absurd ⟨h0, hb⟩ hc
    split at h
    · next hb =>
      rw [storeAndAdvance_cur, cur_advance hb] at h
      split at h
      · next hf =>
        obtain ⟨u, hu, ht⟩ := andThen_eq_next.mp h
        injection ht with ht
        exact .inr (.inr ⟨hs, hb, hf, u, hu, ht.symm⟩)
      · next hf => injection h with h; exact .inr (.inl ⟨hs, hb, hf, h.symm⟩)
    · cases h

theorem assemble_discard {k : State → Answer} {b : Byte} {s : State} (h0 : s.cur = 0) (hb : b ≠ START) :
    assemble k b s = .next s := by
  simp [assemble, h0, hb]

theorem assemble_store {k : State → Answer} {b : Byte} {s : State} (hs : s.cur = 0 → b = START)
    (hb : s.cur.toNat < BUF_SIZE) (hf : s.cur.toNat + 1 ≠ frameSize s.params.variant) :
    assemble k b s = .next (storeAndAdvance b s) := by
  unfold assemble
  rw [if_neg (fun h => h.2 (hs h.1)), if_pos hb, storeAndAdvance_cur, cur_advance hb, if_neg hf]

theorem assemble_complete {k : State → Answer} {b : Byte} {s u : State} (hs : s.cur = 0 → b = START)
    (hb : s.cur.toNat < BUF_SIZE) (hf : s.cur.toNat + 1 = frameSize s.params.variant)
    (hk : k (storeAndAdvance b s) = .next u) : assemble k b s = .next (u.setCur 0) := by
  unfold assemble
  rw [if_neg (fun h => h.2 (hs h.1)), if_pos hb, storeAndAdvance_cur, cur_advance hb, if_pos hf, hk, andThen_next]

/-! The internal steps of FG. -/

@[simp] theorem fgRun_idle {s : State} (h : s.fgAt = .idle) (n : Nat) : fgRun n s = .next s := by
  induction n with
  | zero => rfl
  | succ n ih => simp [fgRun, fgStep, h, ih]

/-- A step that leaves FG where it is can be repeated. -/
theorem fgRun_fixed {s : State} (h : fgStep s = .next s) (n : Nat) : fgRun n s = .next s := by
  induction n with
  | zero => rfl
  | succ n ih => simp [fgRun, h, ih]

theorem fgRun_succ (n : Nat) (s : State) : fgRun (n + 1) s = andThen (fgStep s) (fgRun n) := rfl

/-- What every internal step keeps, FG's run keeps. -/
theorem fgRun_keeps {P : State → Prop} (hP : ∀ s t, P s → fgStep s = .next t → P t) {n : Nat} {s t : State}
    (hs : P s) (h : fgRun n s = .next t) : P t := by
  induction n generalizing s with
  | zero => injection h with h; exact h ▸ hs
  | succ n ih =>
    obtain ⟨u, hu, ht⟩ := andThen_eq_next.mp h
    exact ih (hP s u hs hu) ht

/-- Everything `recv` and the handling of its byte can do (R125, R126, R130). -/
theorem recvStep_cases {n : Nat} {s t : State} (h : recvStep n s = .next t) :
    (s.env.inbound = [] ∧ t = s) ∨
    ∃ b rest, s.env.inbound = b :: rest ∧
      ((s.params.framing = .resync ∧
          assemble (withFrame finishQuery) b (s.setEnv { s.env with inbound := rest }) = .next t) ∨
       (s.params.framing = .blind ∧ n < BUF_SIZE ∧
          ((n + 1 ≠ frameSize s.params.variant ∧
              t = ((s.setEnv { s.env with inbound := rest }).setRxb (s.rxb.write n b)).setFgAt (.recv (n + 1))) ∨
           (n + 1 = frameSize s.params.variant ∧ withFrame finishQuery
              (((s.setEnv { s.env with inbound := rest }).setRxb (s.rxb.write n b)).setFgAt (.recv (n + 1))) =
                .next t)))) := by
  unfold recvStep at h
  split at h
  · next hi => injection h with h; exact .inl ⟨hi, h.symm⟩
  · next b rest hi =>
    refine .inr ⟨b, rest, hi, ?_⟩
    split at h
    · next hf => exact .inl ⟨hf, h⟩
    · next hf =>
      split at h
      · next hn =>
        split at h
        · next hl => exact .inr ⟨hf, hn, .inr ⟨hl, h⟩⟩
        · next hl => injection h with h; exact .inr ⟨hf, hn, .inl ⟨hl, h.symm⟩⟩
      · cases h

/-- Everything one byte of `send` can do: FG is blocked, or the sink takes the byte (R44, R89, R92). -/
theorem sendCallStep_eq_next {i : Nat} {s t : State} (h : sendCallStep i s = .next t) :
    (s.env.sinkReady = false ∧ t = s) ∨
    (s.env.sinkReady = true ∧ ∃ b, s.txb.read i = some b ∧
      t = (s.record (.sent b)).setFgAt (sendPoint s.params.variant (i + 1))) := by
  unfold sendCallStep at h
  split at h
  · next hr =>
    split at h
    · next b hb => injection h with h; exact .inr ⟨hr, b, hb, h.symm⟩
    · cases h
  · next hr => injection h with h; exact .inl ⟨by simpa using hr, h.symm⟩

/-- Everything one internal step of FG can do (R48). -/
theorem fgStep_cases {s t : State} (h : fgStep s = .next t) :
    (s.fgAt = .idle ∧ t = s) ∨
    (∃ op dh dl, s.fgAt = .encodeCall op dh dl ∧ t = encodeStep op dh dl s) ∨
    (∃ i b rest, s.fgAt = .fill i b rest ∧ i < BUF_SIZE ∧
      t = (s.setTxb (s.txb.write i b)).setFgAt (fillPoint (i + 1) rest)) ∨
    (∃ i, s.fgAt = .sendCall i ∧ s.env.sinkReady = false ∧ t = s) ∨
    (∃ i b, s.fgAt = .sendCall i ∧ s.env.sinkReady = true ∧ s.txb.read i = some b ∧
      t = (s.record (.sent b)).setFgAt (sendPoint s.params.variant (i + 1))) ∨
    (s.fgAt = .delayCall ∧ t = (s.record (.delay Config.settleMs)).setFgAt .delayWait) ∨
    (s.fgAt = .delayWait ∧ s.env.delayReady = false ∧ t = s) ∨
    (s.fgAt = .delayWait ∧ s.env.delayReady = true ∧ t = s.setFgAt .sendDone) ∨
    (s.fgAt = .sendDone ∧ t = (s.setTxbusy false).setFgAt .idle) ∨
    ∃ n, s.fgAt = .recv n ∧ recvStep n s = .next t := by
  unfold fgStep at h
  split at h
  · next hp => injection h with h; exact .inl ⟨hp, h.symm⟩
  · next op dh dl hp => injection h with h; exact .inr (.inl ⟨op, dh, dl, hp, h.symm⟩)
  · next i b rest hp =>
    unfold fillStep at h
    split at h
    · next hi => injection h with h; exact .inr (.inr (.inl ⟨i, b, rest, hp, hi, h.symm⟩))
    · cases h
  · next i hp =>
    rcases sendCallStep_eq_next h with ⟨hr, ht⟩ | ⟨hr, b, hb, ht⟩
    · exact .inr (.inr (.inr (.inl ⟨i, hp, hr, ht⟩)))
    · exact .inr (.inr (.inr (.inr (.inl ⟨i, b, hp, hr, hb, ht⟩))))
  · next hp => injection h with h; exact .inr (.inr (.inr (.inr (.inr (.inl ⟨hp, h.symm⟩)))))
  · next hp =>
    split at h
    · next hr => injection h with h; exact .inr (.inr (.inr (.inr (.inr (.inr (.inr (.inl ⟨hp, hr, h.symm⟩)))))))
    · next hr =>
      injection h with h
      exact .inr (.inr (.inr (.inr (.inr (.inr (.inl ⟨hp, by simpa using hr, h.symm⟩))))))
  · next hp => injection h with h; exact .inr (.inr (.inr (.inr (.inr (.inr (.inr (.inr (.inl ⟨hp, h.symm⟩))))))))
  · next n hp => exact .inr (.inr (.inr (.inr (.inr (.inr (.inr (.inr (.inr ⟨n, hp, h⟩))))))))

/-- The whole of line 3 of SEND: as many internal steps as bytes, after which TXB holds them and `send` is next (R88). -/
theorem fgRun_fill {s : State} {i : Nat} {bs : List Byte} (h : s.fgAt = fillPoint i bs) (hi : i + bs.length ≤ BUF_SIZE) :
    fgRun bs.length s = .next ((s.setTxb (s.txb.writeFrom i bs)).setFgAt (.sendCall 0)) := by
  induction bs generalizing s i with
  | nil => simp only [fillPoint] at h; simp only [fgRun, List.length_nil, Memory.writeFrom, State.setTxb, State.setFgAt, ← h]
  | cons b bs ih =>
    simp only [List.length_cons] at hi
    have hs : fgStep s = .next ((s.setTxb (s.txb.write i b)).setFgAt (fillPoint (i + 1) bs)) := by
      simp only [fgStep, h, fillPoint, fillStep]
      rw [if_pos (by omega)]
    rw [List.length_cons, fgRun_succ, hs, andThen_next, ih rfl (by omega)]
    rfl

/-- The whole of line 4 of SEND with a sink that stays ready: as many internal steps as bytes, which go out in ascending offset
(R44, R89). -/
theorem fgRun_send {s : State} {i : Nat} {bs : List Byte} (hr : s.env.sinkReady = true)
    (h : s.fgAt = sendPoint s.params.variant i) (hi : i + bs.length = frameSize s.params.variant)
    (hb : ∀ k, k < bs.length → s.txb.read (i + k) = bs[k]?) :
    fgRun bs.length s = .next { s with
      trace := s.trace ++ bs.map .sent, fgAt := sendPoint s.params.variant (frameSize s.params.variant) } := by
  induction bs generalizing s i with
  | nil =>
    obtain rfl : i = frameSize s.params.variant := hi
    simp only [fgRun, List.length_nil, List.map_nil, List.append_nil, ← h]
  | cons b bs ih =>
    simp only [List.length_cons] at hi
    have h0 : s.txb.read i = some b := by simpa using hb 0 (by simp)
    have hs : fgStep s = .next ((s.record (.sent b)).setFgAt (sendPoint s.params.variant (i + 1))) := by
      rw [sendPoint, if_pos (by omega)] at h
      simp only [fgStep, h, sendCallStep, hr, h0, if_true]
    rw [List.length_cons, fgRun_succ, hs, andThen_next,
      ih (by exact hr) rfl (by simp only [State.setFgAt_params, State.record_params]; omega) fun k hk => by
        have := hb (k + 1) (by simp only [List.length_cons]; omega)
        rw [List.getElem?_cons_succ] at this
        rw [← this]
        simp only [State.setFgAt_txb, State.record_txb]
        congr 1; omega]
    simp [State.record, State.setFgAt]

theorem sendStart_eq_next {op dh dl : Byte} {s t : State} (h : sendStart op dh dl s = .next t) :
    s.txbusy = false ∧ s.fgAt = .idle ∧ t = sendBegin op dh dl s := by
  unfold sendStart at h
  split at h
  · cases h
  · next hb =>
    split at h
    · next hi => injection h with h; exact ⟨by simpa using hb, hi, h.symm⟩
    · cases h

/-- SEND either is refused or takes its first transition and goes on (R87, R93). -/
theorem sendFrame_eq_next {op dh dl : Byte} {s t : State} (h : sendFrame op dh dl s = .next t) :
    s.txbusy = false ∧ s.fgAt = .idle ∧ fgContinue (sendBegin op dh dl s) = .next t := by
  obtain ⟨u, hu, ht⟩ := andThen_eq_next.mp h
  obtain ⟨h1, h2, rfl⟩ := sendStart_eq_next hu
  exact ⟨h1, h2, ht⟩

theorem queryStart_eq_next {e : Byte} {s t : State} (h : queryStart e s = .next t) :
    s.mode = .sync ∧ s.fgAt = .idle ∧ t = queryBegin e s := by
  unfold queryStart at h
  split at h
  · cases h
  · next hm =>
    split at h
    · next hi => injection h with h; exact ⟨by cases hx : s.mode <;> simp_all, hi, h.symm⟩
    · cases h

/-- QUERY either is refused or takes its first line and goes on (R124, R131). -/
theorem queryFor_eq_next {e : Byte} {s t : State} (h : queryFor e s = .next t) :
    s.mode = .sync ∧ s.fgAt = .idle ∧ fgContinue (queryBegin e s) = .next t := by
  obtain ⟨u, hu, ht⟩ := andThen_eq_next.mp h
  obtain ⟨h1, h2, rfl⟩ := queryStart_eq_next hu
  exact ⟨h1, h2, ht⟩

end Sys2Proof.Machine
end

