-- ==== Sys2Proof/Laws/Exec.lean ====
section
/-! SUPPORT. What exec can do, by the shape of the instruction: the 66 arms fall into ten shapes. -/

namespace Sys2Proof.Machine

/-- The shape of an instruction's arm: a SEND, an inbound frame, or one of the block's other operations. -/
theorem exec_shape (i : Instr) :
    (∃ op dh dl, sendOpcode i = some op ∧ ∀ s, exec i s = sendFrame op dh dl s) ∨
    (∃ op dh dl, (encode i).port = .inbound ∧ ∀ s, exec i s = .next (interpret op dh dl s)) ∨
    (∃ b1 b2 b3 b4 b5 b6, i = .cksum b1 b2 b3 b4 b5 b6) ∨ (∃ op dh dl, i = .encode op dh dl) ∨
    (∃ b, i = .rxbyte b) ∨ (∃ e, i = .query e) ∨ (∃ m, i = .setmode m) ∨ (∃ mask, i = .clrstat mask) ∨
    (∃ f, i = .rdstat f) := by
  cases i
  case cksum => exact .inr (.inr (.inl ⟨_, _, _, _, _, _, rfl⟩))
  case encode => exact .inr (.inr (.inr (.inl ⟨_, _, _, rfl⟩)))
  case rxbyte => exact .inr (.inr (.inr (.inr (.inl ⟨_, rfl⟩))))
  case query => exact .inr (.inr (.inr (.inr (.inr (.inl ⟨_, rfl⟩)))))
  case setmode => exact .inr (.inr (.inr (.inr (.inr (.inr (.inl ⟨_, rfl⟩))))))
  case clrstat => exact .inr (.inr (.inr (.inr (.inr (.inr (.inr (.inl ⟨_, rfl⟩)))))))
  case rdstat => exact .inr (.inr (.inr (.inr (.inr (.inr (.inr (.inr ⟨_, rfl⟩)))))))
  all_goals first
    | exact .inl ⟨_, _, _, rfl, fun _ => rfl⟩
    | exact .inr (.inl ⟨_, _, _, rfl, fun _ => rfl⟩)

theorem execSetmode_eq_next {m : Mode} {s t : State} (h : execSetmode m s = .next t) :
    s.txbusy = false ∧ s.qactive = false ∧ t = s.setMode m := by
  unfold execSetmode at h
  split at h
  · cases h
  · next hb => injection h with h; simp at hb; exact ⟨hb.1, hb.2, h.symm⟩

theorem execRdstat_eq_next {f : BitVec 3} {s t : State} (h : execRdstat f s = .next t) :
    ∃ v, statusField f s.status = some v ∧ t = s.record (.returned (.field v)) := by
  unfold execRdstat at h
  split at h
  · next v hv => injection h with h; exact ⟨v, hv, h.symm⟩
  · cases h

/-- RXBYTE: the handler in ASYNC mode, a byte that waits in SYNC mode. -/
theorem execRxbyte_eq_next {b : Byte} {s t : State} (h : execRxbyte b s = .next t) :
    (s.mode = .async ∧ assemble (withFrame dispatch) b s = .next t) ∨ (s.mode = .sync ∧ t = holdByte b s) := by
  unfold execRxbyte at h
  split at h
  · next hm => exact .inl ⟨hm, h⟩
  · next hm => injection h with h; exact .inr ⟨hm, h.symm⟩

end Sys2Proof.Machine
end

