-- ==== Sys2Proof/Laws/PerInstr.lean ====
section
/-! SUPPORT. Families of laws stated per instruction. EncodeWidth: a transaction has the byte count of its port. -/

/-- The byte count of a transaction at a port: 7 for a frame prefix (R63), the operand word's for the others (R70). -/
def Sys2Proof.Laws.EncodeWidth.byteCount (p : Sys2Proof.Port) : Nat :=
  match p with
  | .command => 7
  | .inbound => 7
  | .cksum => 6
  | .encode => 3
  | .send => 3
  | .rxbyte => 1
  | .query => 1
  | .setmode => 1
  | .clrstat => 1
  | .rdstat => 1

/-- The encoding of an instruction has the byte count of its port. -/
def Sys2Proof.Laws.EncodeWidth.Statement (i : Sys2Proof.Instr) : Prop :=
  (Sys2Proof.encode i).bytes.length = Sys2Proof.Laws.EncodeWidth.byteCount (Sys2Proof.encode i).port

theorem Sys2Proof.Laws.EncodeWidth.playNext (dh dl : Sys2Proof.Byte) : Statement (.playNext dh dl) := rfl
theorem Sys2Proof.Laws.EncodeWidth.playPrevious (dh dl : Sys2Proof.Byte) : Statement (.playPrevious dh dl) := rfl
theorem Sys2Proof.Laws.EncodeWidth.playTrack (dh dl : Sys2Proof.Byte) : Statement (.playTrack dh dl) := rfl
theorem Sys2Proof.Laws.EncodeWidth.volumeUp (dh dl : Sys2Proof.Byte) : Statement (.volumeUp dh dl) := rfl
theorem Sys2Proof.Laws.EncodeWidth.volumeDown (dh dl : Sys2Proof.Byte) : Statement (.volumeDown dh dl) := rfl
theorem Sys2Proof.Laws.EncodeWidth.setVolume (dh dl : Sys2Proof.Byte) : Statement (.setVolume dh dl) := rfl
theorem Sys2Proof.Laws.EncodeWidth.setEqualizer (dh dl : Sys2Proof.Byte) : Statement (.setEqualizer dh dl) := rfl
theorem Sys2Proof.Laws.EncodeWidth.repeatTrack (dh dl : Sys2Proof.Byte) : Statement (.repeatTrack dh dl) := rfl
theorem Sys2Proof.Laws.EncodeWidth.setSource (dh dl : Sys2Proof.Byte) : Statement (.setSource dh dl) := rfl
theorem Sys2Proof.Laws.EncodeWidth.sleep (dh dl : Sys2Proof.Byte) : Statement (.sleep dh dl) := rfl
theorem Sys2Proof.Laws.EncodeWidth.wake (dh dl : Sys2Proof.Byte) : Statement (.wake dh dl) := rfl
theorem Sys2Proof.Laws.EncodeWidth.reset (dh dl : Sys2Proof.Byte) : Statement (.reset dh dl) := rfl
theorem Sys2Proof.Laws.EncodeWidth.play (dh dl : Sys2Proof.Byte) : Statement (.play dh dl) := rfl
theorem Sys2Proof.Laws.EncodeWidth.pause (dh dl : Sys2Proof.Byte) : Statement (.pause dh dl) := rfl
theorem Sys2Proof.Laws.EncodeWidth.playFolder (dh dl : Sys2Proof.Byte) : Statement (.playFolder dh dl) := rfl
theorem Sys2Proof.Laws.EncodeWidth.setDacGain (dh dl : Sys2Proof.Byte) : Statement (.setDacGain dh dl) := rfl
theorem Sys2Proof.Laws.EncodeWidth.repeatAll (dh dl : Sys2Proof.Byte) : Statement (.repeatAll dh dl) := rfl
theorem Sys2Proof.Laws.EncodeWidth.playMp3Folder (dh dl : Sys2Proof.Byte) : Statement (.playMp3Folder dh dl) := rfl
theorem Sys2Proof.Laws.EncodeWidth.playAdvertFolder (dh dl : Sys2Proof.Byte) : Statement (.playAdvertFolder dh dl) := rfl
theorem Sys2Proof.Laws.EncodeWidth.play3000Folder (dh dl : Sys2Proof.Byte) : Statement (.play3000Folder dh dl) := rfl
theorem Sys2Proof.Laws.EncodeWidth.stopAdvertFolder (dh dl : Sys2Proof.Byte) : Statement (.stopAdvertFolder dh dl) := rfl
theorem Sys2Proof.Laws.EncodeWidth.stop (dh dl : Sys2Proof.Byte) : Statement (.stop dh dl) := rfl
theorem Sys2Proof.Laws.EncodeWidth.repeatFolder (dh dl : Sys2Proof.Byte) : Statement (.repeatFolder dh dl) := rfl
theorem Sys2Proof.Laws.EncodeWidth.randomAll (dh dl : Sys2Proof.Byte) : Statement (.randomAll dh dl) := rfl
theorem Sys2Proof.Laws.EncodeWidth.loopTrack (dh dl : Sys2Proof.Byte) : Statement (.loopTrack dh dl) := rfl
theorem Sys2Proof.Laws.EncodeWidth.enableDac (dh dl : Sys2Proof.Byte) : Statement (.enableDac dh dl) := rfl
theorem Sys2Proof.Laws.EncodeWidth.query42 (dh dl : Sys2Proof.Byte) : Statement (.query42 dh dl) := rfl
theorem Sys2Proof.Laws.EncodeWidth.query42Rx (f : Sys2Proof.RxFields) : Statement (.query42Rx f) := rfl
theorem Sys2Proof.Laws.EncodeWidth.getVolume (dh dl : Sys2Proof.Byte) : Statement (.getVolume dh dl) := rfl
theorem Sys2Proof.Laws.EncodeWidth.getVolumeRx (f : Sys2Proof.RxFields) : Statement (.getVolumeRx f) := rfl
theorem Sys2Proof.Laws.EncodeWidth.query44 (dh dl : Sys2Proof.Byte) : Statement (.query44 dh dl) := rfl
theorem Sys2Proof.Laws.EncodeWidth.query44Rx (f : Sys2Proof.RxFields) : Statement (.query44Rx f) := rfl
theorem Sys2Proof.Laws.EncodeWidth.query45 (dh dl : Sys2Proof.Byte) : Statement (.query45 dh dl) := rfl
theorem Sys2Proof.Laws.EncodeWidth.query45Rx (f : Sys2Proof.RxFields) : Statement (.query45Rx f) := rfl
theorem Sys2Proof.Laws.EncodeWidth.query46 (dh dl : Sys2Proof.Byte) : Statement (.query46 dh dl) := rfl
theorem Sys2Proof.Laws.EncodeWidth.query46Rx (f : Sys2Proof.RxFields) : Statement (.query46Rx f) := rfl
theorem Sys2Proof.Laws.EncodeWidth.query47 (dh dl : Sys2Proof.Byte) : Statement (.query47 dh dl) := rfl
theorem Sys2Proof.Laws.EncodeWidth.query47Rx (f : Sys2Proof.RxFields) : Statement (.query47Rx f) := rfl
theorem Sys2Proof.Laws.EncodeWidth.query48 (dh dl : Sys2Proof.Byte) : Statement (.query48 dh dl) := rfl
theorem Sys2Proof.Laws.EncodeWidth.query48Rx (f : Sys2Proof.RxFields) : Statement (.query48Rx f) := rfl
theorem Sys2Proof.Laws.EncodeWidth.query49 (dh dl : Sys2Proof.Byte) : Statement (.query49 dh dl) := rfl
theorem Sys2Proof.Laws.EncodeWidth.query49Rx (f : Sys2Proof.RxFields) : Statement (.query49Rx f) := rfl
theorem Sys2Proof.Laws.EncodeWidth.query4A (dh dl : Sys2Proof.Byte) : Statement (.query4A dh dl) := rfl
theorem Sys2Proof.Laws.EncodeWidth.query4ARx (f : Sys2Proof.RxFields) : Statement (.query4ARx f) := rfl
theorem Sys2Proof.Laws.EncodeWidth.query4B (dh dl : Sys2Proof.Byte) : Statement (.query4B dh dl) := rfl
theorem Sys2Proof.Laws.EncodeWidth.query4BRx (f : Sys2Proof.RxFields) : Statement (.query4BRx f) := rfl
theorem Sys2Proof.Laws.EncodeWidth.query4C (dh dl : Sys2Proof.Byte) : Statement (.query4C dh dl) := rfl
theorem Sys2Proof.Laws.EncodeWidth.query4CRx (f : Sys2Proof.RxFields) : Statement (.query4CRx f) := rfl
theorem Sys2Proof.Laws.EncodeWidth.query4D (dh dl : Sys2Proof.Byte) : Statement (.query4D dh dl) := rfl
theorem Sys2Proof.Laws.EncodeWidth.query4DRx (f : Sys2Proof.RxFields) : Statement (.query4DRx f) := rfl
theorem Sys2Proof.Laws.EncodeWidth.query4E (dh dl : Sys2Proof.Byte) : Statement (.query4E dh dl) := rfl
theorem Sys2Proof.Laws.EncodeWidth.query4ERx (f : Sys2Proof.RxFields) : Statement (.query4ERx f) := rfl
theorem Sys2Proof.Laws.EncodeWidth.query4F (dh dl : Sys2Proof.Byte) : Statement (.query4F dh dl) := rfl
theorem Sys2Proof.Laws.EncodeWidth.query4FRx (f : Sys2Proof.RxFields) : Statement (.query4FRx f) := rfl
theorem Sys2Proof.Laws.EncodeWidth.done (f : Sys2Proof.RxFields) : Statement (.done f) := rfl
theorem Sys2Proof.Laws.EncodeWidth.ready (f : Sys2Proof.RxFields) : Statement (.ready f) := rfl
theorem Sys2Proof.Laws.EncodeWidth.error (f : Sys2Proof.RxFields) : Statement (.error f) := rfl
theorem Sys2Proof.Laws.EncodeWidth.okAck (f : Sys2Proof.RxFields) : Statement (.okAck f) := rfl
theorem Sys2Proof.Laws.EncodeWidth.cksum (b1 b2 b3 b4 b5 b6 : Sys2Proof.Byte) : Statement (.cksum b1 b2 b3 b4 b5 b6) := rfl
theorem Sys2Proof.Laws.EncodeWidth.encode (op dh dl : Sys2Proof.Byte) : Statement (.encode op dh dl) := rfl
theorem Sys2Proof.Laws.EncodeWidth.send (op dh dl : Sys2Proof.Byte) : Statement (.send op dh dl) := rfl
theorem Sys2Proof.Laws.EncodeWidth.rxbyte (b : Sys2Proof.Byte) : Statement (.rxbyte b) := rfl
theorem Sys2Proof.Laws.EncodeWidth.query (e : Sys2Proof.Byte) : Statement (.query e) := rfl
theorem Sys2Proof.Laws.EncodeWidth.setmode (m : Sys2Proof.Mode) : Statement (.setmode m) := by cases m <;> rfl
theorem Sys2Proof.Laws.EncodeWidth.clrstat (mask : BitVec 5) : Statement (.clrstat mask) := rfl
theorem Sys2Proof.Laws.EncodeWidth.rdstat (f : BitVec 3) : Statement (.rdstat f) := rfl
end

