-- ==== Sys2Proof/Laws/Step.lean ====
section
/-! SUPPORT. What one transition can do: the readings of a completed frame, FG's runs in parts, the turns of the agents, the
step; and the memories after reset. -/

namespace Sys2Proof.Machine

/-- A completed frame is dispatched, answers the active QUERY, or is read by no agent (R113). -/
theorem interpret_cases (op dh dl : Byte) (s : State) :
    (s.mode = .async ∧ interpret op dh dl s = dispatch op dh dl s) ∨
    (s.mode = .sync ∧ s.qactive = true ∧ interpret op dh dl s = finishQuery op dh dl s) ∨
    (s.mode = .sync ∧ s.qactive = false ∧ interpret op dh dl s = s) := by
  unfold interpret
  split
  · next hm => exact .inl ⟨hm, rfl⟩
  · next hm =>
    split
    · next hq => exact .inr (.inl ⟨hm, hq, rfl⟩)
    · next hq => exact .inr (.inr ⟨hm, by simpa using hq, rfl⟩)

/-- A run of FG's internal steps can be cut anywhere. -/
theorem fgRun_add (a b : Nat) (s : State) : fgRun (a + b) s = andThen (fgRun a s) (fgRun b) := by
  induction a generalizing s with
  | zero => simp [fgRun]
  | succ a ih =>
    rw [Nat.add_right_comm, fgRun_succ, fgRun_succ]
    cases fgStep s <;> simp [ih]

/-- A blocked FG stays where it is (R194). -/
theorem fgStep_of_blocked {s : State} (h : FgBlocked s) : fgStep s = .next s := by
  rcases h with ⟨⟨i, h1⟩, h2⟩ | ⟨h1, h2⟩ | ⟨⟨n, h1⟩, h2⟩
  · simp [fgStep, sendCallStep, h1, h2]
  · simp [fgStep, h1, h2]
  · simp [fgStep, recvStep, h1, h2]

/-- The first transition of an operation: all of it, or SEND's or QUERY's first line. -/
theorem startOperation_cases (i : Instr) :
    (∀ s, startOperation i s = exec i s) ∨
    (∃ op dh dl, sendOpcode i = some op ∧ ∀ s, startOperation i s = sendStart op dh dl s) ∨
    (∃ e, i = .query e ∧ ∀ s, startOperation i s = queryStart e s) := by
  cases i
  case query e => exact .inr (.inr ⟨e, rfl, fun _ => rfl⟩)
  case setmode m => cases m <;> exact .inl fun _ => rfl
  all_goals first
    | exact .inr (.inl ⟨_, _, _, rfl, fun _ => rfl⟩)
    | exact .inl fun _ => rfl

/-- Everything FG's issue of an operation can do when it answers a next state. -/
theorem issueWith_eq_next {run : Instr → State → Answer} {s u : State} (h : issueWith run s = .next u) :
    (s.env.ops = [] ∧ u = s) ∨
    ∃ t rest i, s.env.ops = t :: rest ∧ decode t = .ok i ∧ isForeground i = true ∧
      run i (s.setEnv { s.env with ops := rest }) = .next u := by
  unfold issueWith at h
  split at h
  · next ho => injection h with h; exact .inl ⟨ho, h.symm⟩
  · next t rest ho =>
    split at h
    · next i hd =>
      split at h
      · next hf => exact .inr ⟨t, rest, i, ho, hd, hf, h⟩
      · cases h
    · cases h

/-- Everything the agents' turns can do when they answer a next state: FG executes or starts its next operation, FG goes on inside
an operation, IRQ takes a byte, only the environment changes, or power-up. -/
theorem takeTurn_cases {t : Turn} {s u : State} (h : takeTurn t s = .next u) :
    (∃ i rest, NextOperation s i ∧ exec i (s.setEnv { s.env with ops := rest }) = .next u) ∨
    (∃ i rest, NextOperation s i ∧ startOperation i (s.setEnv { s.env with ops := rest }) = .next u) ∨
    (∃ n, fgRun n s = .next u) ∨
    (∃ b rest, s.mode = .async ∧ s.env.inbound = b :: rest ∧
      exec (.rxbyte b) (s.setEnv { s.env with inbound := rest }) = .next u) ∨
    (∃ e, u = s.setEnv e) ∨ (t = .powerUp ∧ u = powerUpTurn s) := by
  cases t with
  | fg =>
    simp only [takeTurn, fgTurn] at h
    split at h
    · next hp =>
      rcases issueWith_eq_next h with ⟨-, rfl⟩ | ⟨t, rest, i, ho, hd, hf, hx⟩
      · exact .inr (.inr (.inr (.inr (.inl ⟨u.env, rfl⟩))))
      · exact .inl ⟨i, rest, ⟨hp, hf, t, rest, ho, hd⟩, hx⟩
    · exact .inr (.inr (.inl ⟨_, h⟩))
  | fgInternal =>
    simp only [takeTurn, fgInternalTurn] at h
    split at h
    · next hp =>
      rcases issueWith_eq_next h with ⟨-, rfl⟩ | ⟨t, rest, i, ho, hd, hf, hx⟩
      · exact .inr (.inr (.inr (.inr (.inl ⟨u.env, rfl⟩))))
      · exact .inr (.inl ⟨i, rest, ⟨hp, hf, t, rest, ho, hd⟩, hx⟩)
    · exact .inr (.inr (.inl ⟨1, by rw [fgRun_succ, h]; rfl⟩))
  | irq =>
    simp only [takeTurn, irqTurn] at h
    split at h
    · next hm hi => exact .inr (.inr (.inr (.inl ⟨_, _, hm, hi, h⟩)))
    · injection h with h; exact .inr (.inr (.inr (.inr (.inl ⟨s.env, h.symm⟩))))
  | arrive b => injection h with h; exact .inr (.inr (.inr (.inr (.inl ⟨_, h.symm⟩))))
  | sink r => injection h with h; exact .inr (.inr (.inr (.inr (.inl ⟨_, h.symm⟩))))
  | dly r => injection h with h; exact .inr (.inr (.inr (.inr (.inl ⟨_, h.symm⟩))))
  | powerUp => injection h with h; exact .inr (.inr (.inr (.inr (.inr ⟨rfl, h.symm⟩))))

/-- A step is the turn of one agent, with the turns that are left. -/
theorem step_eq_next {s u : State} (h : step s = .next u) : ∃ t e, takeTurn t (s.setEnv e) = .next u ∧
    e.ops = s.env.ops ∧ e.inbound = s.env.inbound ∧ (t = .powerUp → PowersUp s) := by
  unfold step nextTransition at h
  split at h
  · next ht => exact ⟨_, s.env, h, rfl, rfl, fun hp => by
      unfold defaultTurn at hp; split at hp <;> cases hp⟩
  · next t rest ht => exact ⟨t, _, h, rfl, rfl, fun hp => ⟨rest, by rw [ht, hp]⟩⟩

/-- An ended run stays ended, whatever turns are left: every further step answers a next state, which has ended too (R229). -/
theorem ended_step {s : State} (h : Ended s) : ∃ u, step s = .next u ∧ Ended u := by
  obtain ⟨h1, h2, h3, h4, h5⟩ := h
  unfold step nextTransition
  split
  · next ht =>
    have hd : defaultTurn s = .fg := by
      unfold defaultTurn
      split
      · next hm hi => rw [(h5 hm).1] at hi; cases hi
      · rfl
    exact ⟨s, by simp [hd, takeTurn, fgTurn, issueWith, h3, h4], h1, h2, h3, h4, h5⟩
  · next t rest ht =>
    have h5' : s.mode = .async → s.env.inbound = [] ∧ ∀ b, Turn.arrive b ∉ rest := fun hm =>
      ⟨(h5 hm).1, fun b hb => (h5 hm).2 b (by rw [ht]; exact List.mem_cons_of_mem _ hb)⟩
    cases t with
    | fg => exact ⟨s.setEnv { s.env with turns := rest }, by simp [takeTurn, fgTurn, issueWith, h3, h4], h1, h2, h3, h4, h5'⟩
    | fgInternal =>
      exact ⟨s.setEnv { s.env with turns := rest }, by simp [takeTurn, fgInternalTurn, issueWith, h3, h4], h1, h2, h3, h4, h5'⟩
    | irq =>
      refine ⟨s.setEnv { s.env with turns := rest }, ?_, h1, h2, h3, h4, h5'⟩
      simp only [takeTurn, irqTurn]
      split
      · next hm hi => rw [State.setEnv_env, (h5 hm).1] at hi; cases hi
      · rfl
    | arrive b =>
      refine ⟨_, rfl, h1, h2, h3, h4, fun hm => ?_⟩
      exact absurd (by rw [ht]; exact List.mem_cons_self) ((h5 hm).2 b)
    | sink r => exact ⟨_, rfl, h1, h2, h3, h4, h5'⟩
    | dly r => exact ⟨_, rfl, h1, h2, h3, h4, h5'⟩
    | powerUp => exact ⟨_, rfl, rfl, rfl, rfl, h4, fun hm => by cases hm⟩

/-- Both memories are in canonical form after reset. -/
theorem reset_memories_wf : Memory.wf State.reset.txb = true ∧ Memory.wf State.reset.rxb = true := ⟨rfl, rfl⟩

end Sys2Proof.Machine
end

