-- ==== Sys2Proof/Tests/Slice0.lean ====
section
/-! SUPPORT. Tests of the model on fixed values: expected results are written from spec/95_test_vectors.md and the encodings of
spec/30_encoding.md; and, for each statement with hypotheses, a concrete state that meets them. -/

namespace Sys2Proof.Tests

open Sys2Proof Sys2Proof.Machine

/-! Helpers: small states. -/

/-- Reset with another variant. -/
def under (v : Variant) : State := { State.reset with params := { State.reset.params with variant := v } }

/-- ASYNC mode, the cursor at `c`, RXB beginning with `bytes`. -/
def receiving (v : Variant) (c : Nat) (bytes : List Byte) : State :=
  { under v with mode := .async, cur := BitVec.ofNat CUR_BITS c, rxb := Memory.writeFrom [] 0 bytes }

/-- SYNC mode with bytes waiting and a reading of SYNC_FRAMING. -/
def querying (f : SyncFraming) (inbound : List Byte) : State :=
  { State.reset with params := { State.reset.params with framing := f }, env := { Env.initial with inbound := inbound } }

/-- Reset with FG's operations, waiting bytes and turns. -/
def running (m : Mode) (ops : List Txn) (inbound : List Byte) (turns : List Turn) : State :=
  { State.reset with mode := m, env := { Env.initial with ops := ops, inbound := inbound, turns := turns } }

/-- FG inside a SEND or QUERY. -/
def inside (p : FgPoint) (s : State) : State :=
  match p with
  | .idle => s
  | .encodeCall _ _ _ => { s with fgAt := p, txbusy := true }
  | .fill i _ _ => { s with fgAt := p, txbusy := true, txb := Memory.writeFrom [] 0 ((wireFrame s.params.variant 0x0D 0 0).take i) }
  | .sendCall _ => { s with fgAt := p, txbusy := true, txb := Memory.writeFrom [] 0 (wireFrame s.params.variant 0x0D 0x00 0x00) }
  | .delayCall => { s with fgAt := p, txbusy := true }
  | .delayWait => { s with fgAt := p, txbusy := true }
  | .sendDone => { s with fgAt := p, txbusy := true }
  | .recv _ => { s with fgAt := p, qactive := true, qexp := 0x43 }

/-- What a test looks at: a property of the next state, false at a stop. -/
def after (a : Answer) (p : State → Bool) : Bool :=
  match a with
  | .next s => p s
  | .fault _ => false
  | .refused _ => false

/-- The bytes the sink takes from the operation. -/
def bytesSentBy (a : Answer) : Option (List Byte) :=
  match a with
  | .next s => some (s.trace.filterMap fun e => match e with
      | .sent b => some b
      | .delay _ => none
      | .returned _ => none)
  | .fault _ => none
  | .refused _ => none

/-- The last result returned to FG. -/
def resultOf (a : Answer) : Option Event :=
  match a with
  | .next s => s.trace.getLast?
  | .fault _ => none
  | .refused _ => none

/-! Well-formedness: RDSTAT's field indexes 5 to 7 are ill-formed (R185), 4 is the last legal one. -/

theorem test_rdstat_5_is_ill_formed : (Instr.rdstat 5).wellFormed = false := by decide
theorem test_rdstat_6_is_ill_formed : (Instr.rdstat 6).wellFormed = false := by decide
theorem test_rdstat_7_is_ill_formed : (Instr.rdstat 7).wellFormed = false := by decide
theorem test_rdstat_4_is_well_formed : (Instr.rdstat 4).wellFormed = true := by decide

/-! Decoding, one word per constructor, written out from R63 to R70: START, VERSION, LENGTH, OPCODE, ACK_FLAG, DATA_HIGH,
DATA_LOW, offset 0 most significant. -/

theorem test_decode_tx_1 :
    decodeTableWord 56 0x7EFF06010112F0 = some (.playNext 0x12 0xF0) ∧
    decodeTableWord 56 0x7EFF06020113EF = some (.playPrevious 0x13 0xEF) ∧
    decodeTableWord 56 0x7EFF06030114EE = some (.playTrack 0x14 0xEE) ∧
    decodeTableWord 56 0x7EFF06040115ED = some (.volumeUp 0x15 0xED) ∧
    decodeTableWord 56 0x7EFF06050116EC = some (.volumeDown 0x16 0xEC) ∧
    decodeTableWord 56 0x7EFF06060117EB = some (.setVolume 0x17 0xEB) ∧
    decodeTableWord 56 0x7EFF06070118EA = some (.setEqualizer 0x18 0xEA) := by decide

theorem test_decode_tx_2 :
    decodeTableWord 56 0x7EFF06080119E9 = some (.repeatTrack 0x19 0xE9) ∧
    decodeTableWord 56 0x7EFF0609011AE8 = some (.setSource 0x1A 0xE8) ∧
    decodeTableWord 56 0x7EFF060A011BE7 = some (.sleep 0x1B 0xE7) ∧
    decodeTableWord 56 0x7EFF060B011CE6 = some (.wake 0x1C 0xE6) ∧
    decodeTableWord 56 0x7EFF060C011DE5 = some (.reset 0x1D 0xE5) ∧
    decodeTableWord 56 0x7EFF060D011EE4 = some (.play 0x1E 0xE4) ∧
    decodeTableWord 56 0x7EFF060E011FE3 = some (.pause 0x1F 0xE3) := by decide

theorem test_decode_tx_3 :
    decodeTableWord 56 0x7EFF060F0120E2 = some (.playFolder 0x20 0xE2) ∧
    decodeTableWord 56 0x7EFF06100121E1 = some (.setDacGain 0x21 0xE1) ∧
    decodeTableWord 56 0x7EFF06110122E0 = some (.repeatAll 0x22 0xE0) ∧
    decodeTableWord 56 0x7EFF06120123DF = some (.playMp3Folder 0x23 0xDF) ∧
    decodeTableWord 56 0x7EFF06130124DE = some (.playAdvertFolder 0x24 0xDE) ∧
    decodeTableWord 56 0x7EFF06140125DD = some (.play3000Folder 0x25 0xDD) ∧
    decodeTableWord 56 0x7EFF06150126DC = some (.stopAdvertFolder 0x26 0xDC) := by decide

theorem test_decode_tx_4 :
    decodeTableWord 56 0x7EFF06160127DB = some (.stop 0x27 0xDB) ∧
    decodeTableWord 56 0x7EFF06170128DA = some (.repeatFolder 0x28 0xDA) ∧
    decodeTableWord 56 0x7EFF06180129D9 = some (.randomAll 0x29 0xD9) ∧
    decodeTableWord 56 0x7EFF0619012AD8 = some (.loopTrack 0x2A 0xD8) ∧
    decodeTableWord 56 0x7EFF061A012BD7 = some (.enableDac 0x2B 0xD7) ∧
    decodeTableWord 56 0x7EFF0642012CD6 = some (.query42 0x2C 0xD6) ∧
    decodeTableWord 56 0x7EFF0643012DD5 = some (.getVolume 0x2D 0xD5) := by decide

theorem test_decode_tx_5 :
    decodeTableWord 56 0x7EFF0644012ED4 = some (.query44 0x2E 0xD4) ∧
    decodeTableWord 56 0x7EFF0645012FD3 = some (.query45 0x2F 0xD3) ∧
    decodeTableWord 56 0x7EFF06460130D2 = some (.query46 0x30 0xD2) ∧
    decodeTableWord 56 0x7EFF06470131D1 = some (.query47 0x31 0xD1) ∧
    decodeTableWord 56 0x7EFF06480132D0 = some (.query48 0x32 0xD0) ∧
    decodeTableWord 56 0x7EFF06490133CF = some (.query49 0x33 0xCF) ∧
    decodeTableWord 56 0x7EFF064A0134CE = some (.query4A 0x34 0xCE) := by decide

theorem test_decode_tx_6 :
    decodeTableWord 56 0x7EFF064B0135CD = some (.query4B 0x35 0xCD) ∧
    decodeTableWord 56 0x7EFF064C0136CC = some (.query4C 0x36 0xCC) ∧
    decodeTableWord 56 0x7EFF064D0137CB = some (.query4D 0x37 0xCB) ∧
    decodeTableWord 56 0x7EFF064E0138CA = some (.query4E 0x38 0xCA) ∧
    decodeTableWord 56 0x7EFF064F0139C9 = some (.query4F 0x39 0xC9) := by decide

theorem test_decode_rx_1 :
    decodeTableWord 56 0x7EA01042802040 =
      some (.query42Rx ⟨0xA0, 0x10, 0x80, 0x20, 0x40⟩) ∧
    decodeTableWord 56 0x7EA11143812141 =
      some (.getVolumeRx ⟨0xA1, 0x11, 0x81, 0x21, 0x41⟩) ∧
    decodeTableWord 56 0x7EA21244822242 =
      some (.query44Rx ⟨0xA2, 0x12, 0x82, 0x22, 0x42⟩) ∧
    decodeTableWord 56 0x7EA31345832343 =
      some (.query45Rx ⟨0xA3, 0x13, 0x83, 0x23, 0x43⟩) ∧
    decodeTableWord 56 0x7EA41446842444 =
      some (.query46Rx ⟨0xA4, 0x14, 0x84, 0x24, 0x44⟩) ∧
    decodeTableWord 56 0x7EA51547852545 =
      some (.query47Rx ⟨0xA5, 0x15, 0x85, 0x25, 0x45⟩) := by decide

theorem test_decode_rx_2 :
    decodeTableWord 56 0x7EA61648862646 =
      some (.query48Rx ⟨0xA6, 0x16, 0x86, 0x26, 0x46⟩) ∧
    decodeTableWord 56 0x7EA71749872747 =
      some (.query49Rx ⟨0xA7, 0x17, 0x87, 0x27, 0x47⟩) ∧
    decodeTableWord 56 0x7EA8184A882848 =
      some (.query4ARx ⟨0xA8, 0x18, 0x88, 0x28, 0x48⟩) ∧
    decodeTableWord 56 0x7EA9194B892949 =
      some (.query4BRx ⟨0xA9, 0x19, 0x89, 0x29, 0x49⟩) ∧
    decodeTableWord 56 0x7EAA1A4C8A2A4A =
      some (.query4CRx ⟨0xAA, 0x1A, 0x8A, 0x2A, 0x4A⟩) ∧
    decodeTableWord 56 0x7EAB1B4D8B2B4B =
      some (.query4DRx ⟨0xAB, 0x1B, 0x8B, 0x2B, 0x4B⟩) := by decide

theorem test_decode_rx_3 :
    decodeTableWord 56 0x7EAC1C4E8C2C4C =
      some (.query4ERx ⟨0xAC, 0x1C, 0x8C, 0x2C, 0x4C⟩) ∧
    decodeTableWord 56 0x7EAD1D4F8D2D4D =
      some (.query4FRx ⟨0xAD, 0x1D, 0x8D, 0x2D, 0x4D⟩) ∧
    decodeTableWord 56 0x7EAE1E3D8E2E4E =
      some (.done ⟨0xAE, 0x1E, 0x8E, 0x2E, 0x4E⟩) ∧
    decodeTableWord 56 0x7EAF1F3F8F2F4F =
      some (.ready ⟨0xAF, 0x1F, 0x8F, 0x2F, 0x4F⟩) ∧
    decodeTableWord 56 0x7EB02040903050 =
      some (.error ⟨0xB0, 0x20, 0x90, 0x30, 0x50⟩) ∧
    decodeTableWord 56 0x7EB12141913151 =
      some (.okAck ⟨0xB1, 0x21, 0x91, 0x31, 0x51⟩) := by decide

theorem test_decode_ports :
    decodeTableWord 48 0x010203040506 = some (.cksum 0x01 0x02 0x03 0x04 0x05 0x06) ∧
    decode ⟨.encode, [0x06, 0x00, 0x0F]⟩ = .ok (.encode 0x06 0x00 0x0F) ∧
    decodeTableWord 24 0x06000F = some (.send 0x06 0x00 0x0F) ∧
    decodeTableWord 8 0x7E = some (.rxbyte 0x7E) ∧
    decode ⟨.query, [0x43]⟩ = .ok (.query 0x43) ∧
    decodeTableWord 1 1 = some (.setmode .async) ∧
    decodeTableWord 5 0x1F = some (.clrstat 0x1F) ∧
    decodeTableWord 3 4 = some (.rdstat 4) := by decide

/-- Reserved words: an opcode of no table (R119, R178), a wrong fixed byte (R63), a wrong length, an operand too wide (R70). -/
theorem test_decode_rejects :
    decode (commandTxn 0x1B 0x00 0x00) = .error .unlistedCommand ∧
    decode (commandTxn 0x41 0x00 0x00) = .error .unlistedCommand ∧
    decode (responseTxn 0x3E ⟨0xFF, 0x06, 0x01, 0x00, 0x00⟩) = .error .unlistedResponse ∧
    decode ⟨.command, [0x7E, 0xFF, 0x06, 0x01, 0x00, 0x00, 0x00]⟩ = .error .notAnOutboundPrefix ∧
    decode ⟨.inbound, [0x00, 0xFF, 0x06, 0x41, 0x01, 0x00, 0x00]⟩ = .error .notAnInboundPrefix ∧
    decode ⟨.send, [0x06, 0x00]⟩ = .error .wrongLength ∧
    decode ⟨.setmode, [0x02]⟩ = .error .operandTooWide ∧
    decode ⟨.clrstat, [0x20]⟩ = .error .operandTooWide ∧
    decode ⟨.rdstat, [0x08]⟩ = .error .operandTooWide := by decide

/-- R61, R72: the operand forms `n` and `p`; R62: the split of the checksum of V-CK-9. -/
theorem test_operand_forms :
    placeWord 0x1234 = (0x12, 0x34) ∧ placeByte 0x1E = (0x00, 0x1E) ∧ dataWord 0x01 0x02 = 0x0102 ∧
    highByte 0xFEB1 = 0xFE ∧ lowByte 0xFEB1 = 0xB1 := by decide

/-- R14, R25: the numbers of VARIANT and MODE. -/
theorem test_enumeration_numbers :
    variantCode .std = 0 ∧ variantCode .inv = 1 ∧ variantCode .slow = 2 ∧ variantCode .none = 3 ∧
    modeBit .sync = 0 ∧ modeBit .async = 1 := by decide

/-! Checksum (V-CK). -/

theorem test_cksum_std :
    checksumOf .std (sumOf 0xFF 0x06 0x06 0x01 0x00 0x0F) = some 0xFEE5 ∧
    checksumOf .std (sumOf 0x00 0x00 0x00 0x00 0x00 0x00) = some 0x0000 ∧
    checksumOf .std (sumOf 0xFF 0xFF 0xFF 0xFF 0xFF 0xFF) = some 0xFA06 ∧
    checksumOf .std (sumOf 0x01 0x00 0x00 0x00 0x00 0x00) = some 0xFFFF ∧
    checksumOf .std (sumOf 0x0F 0x00 0x01 0x06 0x06 0xFF) = some 0xFEE5 := by decide

theorem test_cksum_other_variants :
    checksumOf .inv (sumOf 0x00 0x00 0x00 0x00 0x00 0x00) = some 0x0000 ∧
    checksumOf .inv (sumOf 0xFF 0x06 0xFF 0x01 0xFF 0xFF) = some 0xFBFD ∧
    checksumOf .slow (sumOf 0xFF 0x06 0x41 0x01 0x00 0x00) = some 0xFEB9 ∧
    checksumOf .none (sumOf 0xFF 0x06 0x06 0x01 0x00 0x0F) = none := by decide

/-- V-CK-9 through the operation. -/
theorem test_exec_cksum :
    resultOf (exec (.cksum 0xFF 0x06 0x03 0x01 0x12 0x34) State.reset) = some (.returned (.checksum (some 0xFEB1))) := by
  decide

/-! Frames (V-EN, L1-S1, L1-S3). -/

theorem test_encode_frames :
    encodeFrame .std 0x06 0x00 0x0F = [0x7E, 0xFF, 0x06, 0x06, 0x01, 0x00, 0x0F, 0xFE, 0xE5, 0xEF] ∧
    encodeFrame .slow 0x03 0x12 0x34 = [0x7E, 0xFF, 0x06, 0x03, 0x01, 0x12, 0x34, 0xFE, 0xB1, 0xEF] ∧
    encodeFrame .inv 0xFF 0xFF 0xFF = [0x7E, 0xFF, 0x06, 0xFF, 0x01, 0xFF, 0xFF, 0xFB, 0xFD, 0xEF] ∧
    encodeFrame .std 0x7E 0x7E 0x7E = [0x7E, 0xFF, 0x06, 0x7E, 0x01, 0x7E, 0x7E, 0xFD, 0x80, 0xEF] ∧
    encodeFrame .none 0x01 0x00 0x00 = [0x7E, 0xFF, 0x06, 0x01, 0x01, 0x00, 0x00, 0xEF] := by decide

/-- L1-S3 through the operation. -/
theorem test_exec_encode :
    resultOf (exec (.encode 0x01 0x00 0x00) (under .none)) =
      some (.returned (.frame [0x7E, 0xFF, 0x06, 0x01, 0x01, 0x00, 0x00, 0xEF])) := by decide

/-! SEND (V-SE-1 to V-SE-3, V-SE-5). -/

theorem test_send_std : exec (.send 0x06 0x00 0x0F) State.reset = .next { State.reset with
    txb := Memory.writeFrom [] 0 [0x7E, 0xFF, 0x06, 0x06, 0x01, 0x00, 0x0F, 0xFE, 0xE5, 0xEF]
    trace := [0x7E, 0xFF, 0x06, 0x06, 0x01, 0x00, 0x0F, 0xFE, 0xE5, 0xEF].map .sent } := by rfl

/-- V-SE-2: the Delay stands after the frame. -/
theorem test_send_slow : exec (.send 0x06 0x00 0x0F) (under .slow) = .next { under .slow with
    txb := Memory.writeFrom [] 0 [0x7E, 0xFF, 0x06, 0x06, 0x01, 0x00, 0x0F, 0xFE, 0xE5, 0xEF]
    trace := [0x7E, 0xFF, 0x06, 0x06, 0x01, 0x00, 0x0F, 0xFE, 0xE5, 0xEF].map .sent ++ [.delay Config.settleMs] } := by rfl

/-! The named commands and queries with zero data under STD and under NONE (V-CMD, V-QRY). -/

theorem test_sent_std_1 :
    bytesSentBy (exec (.playNext 0 0) State.reset) = some [0x7E, 0xFF, 0x06, 0x01, 0x01, 0x00, 0x00, 0xFE, 0xF9, 0xEF] ∧
    bytesSentBy (exec (.playPrevious 0 0) State.reset) = some [0x7E, 0xFF, 0x06, 0x02, 0x01, 0x00, 0x00, 0xFE, 0xF8, 0xEF] ∧
    bytesSentBy (exec (.playTrack 0 0) State.reset) = some [0x7E, 0xFF, 0x06, 0x03, 0x01, 0x00, 0x00, 0xFE, 0xF7, 0xEF] ∧
    bytesSentBy (exec (.volumeUp 0 0) State.reset) = some [0x7E, 0xFF, 0x06, 0x04, 0x01, 0x00, 0x00, 0xFE, 0xF6, 0xEF] ∧
    bytesSentBy (exec (.volumeDown 0 0) State.reset) = some [0x7E, 0xFF, 0x06, 0x05, 0x01, 0x00, 0x00, 0xFE, 0xF5, 0xEF] ∧
    bytesSentBy (exec (.setVolume 0 0) State.reset) = some [0x7E, 0xFF, 0x06, 0x06, 0x01, 0x00, 0x00, 0xFE, 0xF4, 0xEF] ∧
    bytesSentBy (exec (.setEqualizer 0 0) State.reset) = some [0x7E, 0xFF, 0x06, 0x07, 0x01, 0x00, 0x00, 0xFE, 0xF3, 0xEF] ∧
    bytesSentBy (exec (.repeatTrack 0 0) State.reset) = some [0x7E, 0xFF, 0x06, 0x08, 0x01, 0x00, 0x00, 0xFE, 0xF2, 0xEF] := by decide

theorem test_sent_std_2 :
    bytesSentBy (exec (.setSource 0 0) State.reset) = some [0x7E, 0xFF, 0x06, 0x09, 0x01, 0x00, 0x00, 0xFE, 0xF1, 0xEF] ∧
    bytesSentBy (exec (.sleep 0 0) State.reset) = some [0x7E, 0xFF, 0x06, 0x0A, 0x01, 0x00, 0x00, 0xFE, 0xF0, 0xEF] ∧
    bytesSentBy (exec (.wake 0 0) State.reset) = some [0x7E, 0xFF, 0x06, 0x0B, 0x01, 0x00, 0x00, 0xFE, 0xEF, 0xEF] ∧
    bytesSentBy (exec (.reset 0 0) State.reset) = some [0x7E, 0xFF, 0x06, 0x0C, 0x01, 0x00, 0x00, 0xFE, 0xEE, 0xEF] ∧
    bytesSentBy (exec (.play 0 0) State.reset) = some [0x7E, 0xFF, 0x06, 0x0D, 0x01, 0x00, 0x00, 0xFE, 0xED, 0xEF] ∧
    bytesSentBy (exec (.pause 0 0) State.reset) = some [0x7E, 0xFF, 0x06, 0x0E, 0x01, 0x00, 0x00, 0xFE, 0xEC, 0xEF] ∧
    bytesSentBy (exec (.playFolder 0 0) State.reset) = some [0x7E, 0xFF, 0x06, 0x0F, 0x01, 0x00, 0x00, 0xFE, 0xEB, 0xEF] ∧
    bytesSentBy (exec (.setDacGain 0 0) State.reset) = some [0x7E, 0xFF, 0x06, 0x10, 0x01, 0x00, 0x00, 0xFE, 0xEA, 0xEF] := by decide

theorem test_sent_std_3 :
    bytesSentBy (exec (.repeatAll 0 0) State.reset) = some [0x7E, 0xFF, 0x06, 0x11, 0x01, 0x00, 0x00, 0xFE, 0xE9, 0xEF] ∧
    bytesSentBy (exec (.playMp3Folder 0 0) State.reset) = some [0x7E, 0xFF, 0x06, 0x12, 0x01, 0x00, 0x00, 0xFE, 0xE8, 0xEF] ∧
    bytesSentBy (exec (.playAdvertFolder 0 0) State.reset) = some [0x7E, 0xFF, 0x06, 0x13, 0x01, 0x00, 0x00, 0xFE, 0xE7, 0xEF] ∧
    bytesSentBy (exec (.play3000Folder 0 0) State.reset) = some [0x7E, 0xFF, 0x06, 0x14, 0x01, 0x00, 0x00, 0xFE, 0xE6, 0xEF] ∧
    bytesSentBy (exec (.stopAdvertFolder 0 0) State.reset) = some [0x7E, 0xFF, 0x06, 0x15, 0x01, 0x00, 0x00, 0xFE, 0xE5, 0xEF] ∧
    bytesSentBy (exec (.stop 0 0) State.reset) = some [0x7E, 0xFF, 0x06, 0x16, 0x01, 0x00, 0x00, 0xFE, 0xE4, 0xEF] ∧
    bytesSentBy (exec (.repeatFolder 0 0) State.reset) = some [0x7E, 0xFF, 0x06, 0x17, 0x01, 0x00, 0x00, 0xFE, 0xE3, 0xEF] ∧
    bytesSentBy (exec (.randomAll 0 0) State.reset) = some [0x7E, 0xFF, 0x06, 0x18, 0x01, 0x00, 0x00, 0xFE, 0xE2, 0xEF] := by decide

theorem test_sent_std_4 :
    bytesSentBy (exec (.loopTrack 0 0) State.reset) = some [0x7E, 0xFF, 0x06, 0x19, 0x01, 0x00, 0x00, 0xFE, 0xE1, 0xEF] ∧
    bytesSentBy (exec (.enableDac 0 0) State.reset) = some [0x7E, 0xFF, 0x06, 0x1A, 0x01, 0x00, 0x00, 0xFE, 0xE0, 0xEF] ∧
    bytesSentBy (exec (.query42 0 0) State.reset) = some [0x7E, 0xFF, 0x06, 0x42, 0x01, 0x00, 0x00, 0xFE, 0xB8, 0xEF] ∧
    bytesSentBy (exec (.getVolume 0 0) State.reset) = some [0x7E, 0xFF, 0x06, 0x43, 0x01, 0x00, 0x00, 0xFE, 0xB7, 0xEF] ∧
    bytesSentBy (exec (.query44 0 0) State.reset) = some [0x7E, 0xFF, 0x06, 0x44, 0x01, 0x00, 0x00, 0xFE, 0xB6, 0xEF] ∧
    bytesSentBy (exec (.query45 0 0) State.reset) = some [0x7E, 0xFF, 0x06, 0x45, 0x01, 0x00, 0x00, 0xFE, 0xB5, 0xEF] ∧
    bytesSentBy (exec (.query46 0 0) State.reset) = some [0x7E, 0xFF, 0x06, 0x46, 0x01, 0x00, 0x00, 0xFE, 0xB4, 0xEF] ∧
    bytesSentBy (exec (.query47 0 0) State.reset) = some [0x7E, 0xFF, 0x06, 0x47, 0x01, 0x00, 0x00, 0xFE, 0xB3, 0xEF] := by decide

theorem test_sent_std_5 :
    bytesSentBy (exec (.query48 0 0) State.reset) = some [0x7E, 0xFF, 0x06, 0x48, 0x01, 0x00, 0x00, 0xFE, 0xB2, 0xEF] ∧
    bytesSentBy (exec (.query49 0 0) State.reset) = some [0x7E, 0xFF, 0x06, 0x49, 0x01, 0x00, 0x00, 0xFE, 0xB1, 0xEF] ∧
    bytesSentBy (exec (.query4A 0 0) State.reset) = some [0x7E, 0xFF, 0x06, 0x4A, 0x01, 0x00, 0x00, 0xFE, 0xB0, 0xEF] ∧
    bytesSentBy (exec (.query4B 0 0) State.reset) = some [0x7E, 0xFF, 0x06, 0x4B, 0x01, 0x00, 0x00, 0xFE, 0xAF, 0xEF] ∧
    bytesSentBy (exec (.query4C 0 0) State.reset) = some [0x7E, 0xFF, 0x06, 0x4C, 0x01, 0x00, 0x00, 0xFE, 0xAE, 0xEF] ∧
    bytesSentBy (exec (.query4D 0 0) State.reset) = some [0x7E, 0xFF, 0x06, 0x4D, 0x01, 0x00, 0x00, 0xFE, 0xAD, 0xEF] ∧
    bytesSentBy (exec (.query4E 0 0) State.reset) = some [0x7E, 0xFF, 0x06, 0x4E, 0x01, 0x00, 0x00, 0xFE, 0xAC, 0xEF] ∧
    bytesSentBy (exec (.query4F 0 0) State.reset) = some [0x7E, 0xFF, 0x06, 0x4F, 0x01, 0x00, 0x00, 0xFE, 0xAB, 0xEF] := by decide

theorem test_sent_none_1 :
    bytesSentBy (exec (.playNext 0 0) (under .none)) = some [0x7E, 0xFF, 0x06, 0x01, 0x01, 0x00, 0x00, 0xEF] ∧
    bytesSentBy (exec (.playPrevious 0 0) (under .none)) = some [0x7E, 0xFF, 0x06, 0x02, 0x01, 0x00, 0x00, 0xEF] ∧
    bytesSentBy (exec (.playTrack 0 0) (under .none)) = some [0x7E, 0xFF, 0x06, 0x03, 0x01, 0x00, 0x00, 0xEF] ∧
    bytesSentBy (exec (.volumeUp 0 0) (under .none)) = some [0x7E, 0xFF, 0x06, 0x04, 0x01, 0x00, 0x00, 0xEF] ∧
    bytesSentBy (exec (.volumeDown 0 0) (under .none)) = some [0x7E, 0xFF, 0x06, 0x05, 0x01, 0x00, 0x00, 0xEF] ∧
    bytesSentBy (exec (.setVolume 0 0) (under .none)) = some [0x7E, 0xFF, 0x06, 0x06, 0x01, 0x00, 0x00, 0xEF] ∧
    bytesSentBy (exec (.setEqualizer 0 0) (under .none)) = some [0x7E, 0xFF, 0x06, 0x07, 0x01, 0x00, 0x00, 0xEF] ∧
    bytesSentBy (exec (.repeatTrack 0 0) (under .none)) = some [0x7E, 0xFF, 0x06, 0x08, 0x01, 0x00, 0x00, 0xEF] ∧
    bytesSentBy (exec (.setSource 0 0) (under .none)) = some [0x7E, 0xFF, 0x06, 0x09, 0x01, 0x00, 0x00, 0xEF] ∧
    bytesSentBy (exec (.sleep 0 0) (under .none)) = some [0x7E, 0xFF, 0x06, 0x0A, 0x01, 0x00, 0x00, 0xEF] := by decide

theorem test_sent_none_2 :
    bytesSentBy (exec (.wake 0 0) (under .none)) = some [0x7E, 0xFF, 0x06, 0x0B, 0x01, 0x00, 0x00, 0xEF] ∧
    bytesSentBy (exec (.reset 0 0) (under .none)) = some [0x7E, 0xFF, 0x06, 0x0C, 0x01, 0x00, 0x00, 0xEF] ∧
    bytesSentBy (exec (.play 0 0) (under .none)) = some [0x7E, 0xFF, 0x06, 0x0D, 0x01, 0x00, 0x00, 0xEF] ∧
    bytesSentBy (exec (.pause 0 0) (under .none)) = some [0x7E, 0xFF, 0x06, 0x0E, 0x01, 0x00, 0x00, 0xEF] ∧
    bytesSentBy (exec (.playFolder 0 0) (under .none)) = some [0x7E, 0xFF, 0x06, 0x0F, 0x01, 0x00, 0x00, 0xEF] ∧
    bytesSentBy (exec (.setDacGain 0 0) (under .none)) = some [0x7E, 0xFF, 0x06, 0x10, 0x01, 0x00, 0x00, 0xEF] ∧
    bytesSentBy (exec (.repeatAll 0 0) (under .none)) = some [0x7E, 0xFF, 0x06, 0x11, 0x01, 0x00, 0x00, 0xEF] ∧
    bytesSentBy (exec (.playMp3Folder 0 0) (under .none)) = some [0x7E, 0xFF, 0x06, 0x12, 0x01, 0x00, 0x00, 0xEF] ∧
    bytesSentBy (exec (.playAdvertFolder 0 0) (under .none)) = some [0x7E, 0xFF, 0x06, 0x13, 0x01, 0x00, 0x00, 0xEF] ∧
    bytesSentBy (exec (.play3000Folder 0 0) (under .none)) = some [0x7E, 0xFF, 0x06, 0x14, 0x01, 0x00, 0x00, 0xEF] := by decide

theorem test_sent_none_3 :
    bytesSentBy (exec (.stopAdvertFolder 0 0) (under .none)) = some [0x7E, 0xFF, 0x06, 0x15, 0x01, 0x00, 0x00, 0xEF] ∧
    bytesSentBy (exec (.stop 0 0) (under .none)) = some [0x7E, 0xFF, 0x06, 0x16, 0x01, 0x00, 0x00, 0xEF] ∧
    bytesSentBy (exec (.repeatFolder 0 0) (under .none)) = some [0x7E, 0xFF, 0x06, 0x17, 0x01, 0x00, 0x00, 0xEF] ∧
    bytesSentBy (exec (.randomAll 0 0) (under .none)) = some [0x7E, 0xFF, 0x06, 0x18, 0x01, 0x00, 0x00, 0xEF] ∧
    bytesSentBy (exec (.loopTrack 0 0) (under .none)) = some [0x7E, 0xFF, 0x06, 0x19, 0x01, 0x00, 0x00, 0xEF] ∧
    bytesSentBy (exec (.enableDac 0 0) (under .none)) = some [0x7E, 0xFF, 0x06, 0x1A, 0x01, 0x00, 0x00, 0xEF] ∧
    bytesSentBy (exec (.query42 0 0) (under .none)) = some [0x7E, 0xFF, 0x06, 0x42, 0x01, 0x00, 0x00, 0xEF] ∧
    bytesSentBy (exec (.getVolume 0 0) (under .none)) = some [0x7E, 0xFF, 0x06, 0x43, 0x01, 0x00, 0x00, 0xEF] ∧
    bytesSentBy (exec (.query44 0 0) (under .none)) = some [0x7E, 0xFF, 0x06, 0x44, 0x01, 0x00, 0x00, 0xEF] ∧
    bytesSentBy (exec (.query45 0 0) (under .none)) = some [0x7E, 0xFF, 0x06, 0x45, 0x01, 0x00, 0x00, 0xEF] := by decide

theorem test_sent_none_4 :
    bytesSentBy (exec (.query46 0 0) (under .none)) = some [0x7E, 0xFF, 0x06, 0x46, 0x01, 0x00, 0x00, 0xEF] ∧
    bytesSentBy (exec (.query47 0 0) (under .none)) = some [0x7E, 0xFF, 0x06, 0x47, 0x01, 0x00, 0x00, 0xEF] ∧
    bytesSentBy (exec (.query48 0 0) (under .none)) = some [0x7E, 0xFF, 0x06, 0x48, 0x01, 0x00, 0x00, 0xEF] ∧
    bytesSentBy (exec (.query49 0 0) (under .none)) = some [0x7E, 0xFF, 0x06, 0x49, 0x01, 0x00, 0x00, 0xEF] ∧
    bytesSentBy (exec (.query4A 0 0) (under .none)) = some [0x7E, 0xFF, 0x06, 0x4A, 0x01, 0x00, 0x00, 0xEF] ∧
    bytesSentBy (exec (.query4B 0 0) (under .none)) = some [0x7E, 0xFF, 0x06, 0x4B, 0x01, 0x00, 0x00, 0xEF] ∧
    bytesSentBy (exec (.query4C 0 0) (under .none)) = some [0x7E, 0xFF, 0x06, 0x4C, 0x01, 0x00, 0x00, 0xEF] ∧
    bytesSentBy (exec (.query4D 0 0) (under .none)) = some [0x7E, 0xFF, 0x06, 0x4D, 0x01, 0x00, 0x00, 0xEF] ∧
    bytesSentBy (exec (.query4E 0 0) (under .none)) = some [0x7E, 0xFF, 0x06, 0x4E, 0x01, 0x00, 0x00, 0xEF] ∧
    bytesSentBy (exec (.query4F 0 0) (under .none)) = some [0x7E, 0xFF, 0x06, 0x4F, 0x01, 0x00, 0x00, 0xEF] := by decide
/-! RXBYTE (V-RX). -/

/-- V-RX-3: a byte that is not START is discarded at cursor 0; START is stored. -/
theorem test_rxbyte_at_cursor_0 :
    exec (.rxbyte 0x7D) (receiving .std 0 []) = .next (receiving .std 0 []) ∧
    exec (.rxbyte 0x7E) (receiving .std 0 []) = .next (receiving .std 1 [0x7E]) := ⟨rfl, rfl⟩

/-- L1-S2: the tenth byte completes the frame, sets OK and returns CUR to 0. -/
theorem test_rxbyte_completes :
    exec (.rxbyte 0xEF) (receiving .std 9 [0x7E, 0xFF, 0x06, 0x41, 0x01, 0x00, 0x00, 0xFF, 0xB9]) =
      .next { receiving .std 0 [0x7E, 0xFF, 0x06, 0x41, 0x01, 0x00, 0x00, 0xFF, 0xB9, 0xEF] with
        status := { Status.reset with ok := true } } := rfl

/-- V-RX-4: START inside a frame is data. -/
theorem test_start_inside_a_frame_is_data :
    exec (.rxbyte 0x7E) (receiving .std 1 [0x7E]) = .next (receiving .std 2 [0x7E, 0x7E]) := rfl

/-- V-RX-8: under NONE the eighth byte completes; the frame's DATA_LOW 3C becomes ERRCODE. -/
theorem test_eighth_byte_completes_under_none :
    exec (.rxbyte 0xFE) (receiving .none 7 [0x7E, 0xFF, 0x06, 0x40, 0x01, 0x00, 0x3C]) =
      .next { receiving .none 0 [0x7E, 0xFF, 0x06, 0x40, 0x01, 0x00, 0x3C, 0xFE] with
        status := { Status.reset with errcode := 0x3C } } := rfl

/-! DISPATCH, by the inbound instructions (V-DI). -/

/-- V-DI-1, V-DI-2, V-DI-8, V-DI-5. -/
theorem test_status_frames :
    after (exec (.done ⟨0xFF, 0x06, 0x01, 0x00, 0x05⟩) (receiving .std 0 [])) (fun s =>
      s.status = { Status.reset with done := true }) = true ∧
    after (exec (.ready ⟨0xFF, 0x06, 0x01, 0x00, 0x02⟩) (receiving .std 0 [])) (fun s =>
      s.status = { Status.reset with ready := true }) = true ∧
    after (exec (.error ⟨0xFF, 0x06, 0x01, 0x12, 0x34⟩) (receiving .std 0 [])) (fun s =>
      s.status = { Status.reset with errcode := 0x34 }) = true ∧
    after (exec (.okAck ⟨0xFF, 0x06, 0x01, 0x00, 0x00⟩) (receiving .std 0 [])) (fun s =>
      s.status = { Status.reset with ok := true }) = true := by decide

/-- V-DI-6: a query answer in ASYNC mode changes nothing. -/
theorem test_query_answers_are_ignored_in_async_mode :
    let f : RxFields := ⟨0xFF, 0x06, 0x01, 0x00, 0x0F⟩
    ([.query42Rx f, .getVolumeRx f, .query44Rx f, .query45Rx f, .query46Rx f, .query47Rx f, .query48Rx f, .query49Rx f,
      .query4ARx f, .query4BRx f, .query4CRx f, .query4DRx f, .query4ERx f, .query4FRx f] : List Instr).all
      (fun i => after (exec i (receiving .std 0 [])) fun s => s = receiving .std 0 []) = true := by decide

/-- V-QU-1, V-QU-4, V-QU-7 and L1-S4 through the inbound instructions: the active QUERY's result, no flag. -/
theorem test_inbound_frames_answer_the_active_query :
    let s : State := { inside (.recv 0) State.reset with qexp := 0x42 }
    resultOf (exec (.query42Rx ⟨0xFF, 0x06, 0x01, 0x01, 0x02⟩) s) = some (.returned (.answer true 0x0102)) ∧
    resultOf (exec (.done ⟨0xFF, 0x06, 0x01, 0x00, 0x05⟩) s) = some (.returned (.answer false 0x0000)) ∧
    after (exec (.done ⟨0xFF, 0x06, 0x01, 0x00, 0x05⟩) s) (fun t => t.status = Status.reset && !t.qactive) = true := by
  decide

/-- SRC_RULE writes SOURCE, through the triple of the frame only (R120). -/
theorem test_source_rule :
    let s : State := { receiving .std 0 [] with params := ⟨.std, .resync, [((0x3F, 0x00, 0x02), 0x02)]⟩ }
    after (exec (.ready ⟨0xFF, 0x06, 0x01, 0x00, 0x02⟩) s) (fun t => t.status.source = 0x02) = true ∧
    after (exec (.ready ⟨0xFF, 0x06, 0x01, 0x00, 0x03⟩) s) (fun t => t.status.source = 0x00) = true := by decide

/-! QUERY (V-QU). -/

/-- V-QU-5: leading garbage separates the two readings. -/
theorem test_query_with_leading_garbage :
    let bytes : List Byte := [0x00, 0xEF, 0x7E, 0xFF, 0x06, 0x43, 0x01, 0x00, 0x0F, 0xFE, 0xA8, 0xEF]
    resultOf (exec (.query 0x43) (querying .resync bytes)) = some (.returned (.answer true 0x000F)) ∧
    resultOf (exec (.query 0x43) (querying .blind bytes)) = some (.returned (.answer false 0x0000)) ∧
    after (exec (.query 0x43) (querying .resync bytes)) (fun t => t.env.inbound = [] && t.cur = 0) = true ∧
    after (exec (.query 0x43) (querying .blind bytes)) (fun t => t.env.inbound = [0xA8, 0xEF]) = true := by decide

/-- V-QU-10: a stale cursor, the two readings. -/
theorem test_query_with_a_stale_cursor :
    let bytes : List Byte := [0x7E, 0xFF, 0x06, 0x43, 0x01, 0x00, 0x0F, 0xFE, 0xA8, 0xEF]
    let old (f : SyncFraming) : State := { querying f bytes with cur := 3, rxb := [(0, 0x7E), (1, 0xFF), (2, 0x06)] }
    resultOf (exec (.query 0x43) (old .resync)) = some (.returned (.answer false 0x0000)) ∧
    resultOf (exec (.query 0x43) (old .blind)) = some (.returned (.answer true 0x000F)) ∧
    after (exec (.query 0x43) (old .resync)) (fun t => t.cur = 0 && t.env.inbound = [0xFE, 0xA8, 0xEF]) = true ∧
    after (exec (.query 0x43) (old .blind)) (fun t => t.cur = 3 && t.env.inbound = []) = true := by decide

/-- V-QU-6: too few bytes, stuck with QACTIVE = 1. -/
theorem test_query_stuck :
    let bytes : List Byte := [0x7E, 0xFF, 0x06, 0x43, 0x01]
    after (exec (.query 0x43) (querying .resync bytes)) (fun t => t.cur = 5 && t.qactive) = true ∧
    after (exec (.query 0x43) (querying .blind bytes)) (fun t => t.cur = 0 && t.qactive && t.rxb.read 4 = some 0x01) =
      true := by decide

/-! Host control and refusals (V-HC, V-RF). -/

/-- V-HC-3. -/
theorem test_setmode :
    exec (.setmode .async) State.reset = .next (receiving .std 0 []) ∧
    exec (.setmode .sync) (receiving .std 4 [0x7E]) = .next { receiving .std 4 [0x7E] with mode := .sync } := ⟨rfl, rfl⟩

/-- V-HC-2, from READY = DONE = OK = 1 and ERRCODE = 34. -/
theorem test_clrstat :
    let s : State := { receiving .std 0 [] with status := ⟨true, true, true, 0x34, 0x00⟩ }
    exec (.clrstat 0x02) s = .next { s with status := ⟨true, false, true, 0x34, 0x00⟩ } ∧
    exec (.clrstat 0x1F) s = .next { s with status := Status.reset } ∧
    exec (.clrstat 0x00) s = .next s := ⟨rfl, rfl, rfl⟩

/-- V-HC-1, V-HC-2, V-RF-3. -/
theorem test_rdstat :
    resultOf (exec (.rdstat 0) State.reset) = some (.returned (.field 0x00)) ∧
    resultOf (exec (.rdstat 3) { State.reset with status := ⟨true, true, true, 0x34, 0x00⟩ }) =
      some (.returned (.field 0x34)) ∧
    exec (.rdstat 5) State.reset = .refused .badStatusField ∧
    exec (.rdstat 7) State.reset = .refused .badStatusField := ⟨rfl, rfl, rfl, rfl⟩

/-- V-RF-1, V-RF-2. -/
theorem test_refusals :
    exec (.query 0x43) (receiving .std 0 []) = .refused .queryInAsyncMode ∧
    exec (.send 0x01 0x00 0x00) { State.reset with txbusy := true } = .refused .sendWhileBusy := ⟨rfl, rfl⟩

/-! The step, and the words the host places. -/

/-- P6's first two steps: the interrupt's byte is handled on IRQ's turn, RDSTAT on FG's. -/
theorem test_step_by_turns :
    after (step (running .async [⟨.rdstat, [0x01]⟩] [0x7E] [.irq])) (fun t => t.cur = 1 && t.env.inbound = []) = true ∧
    resultOf (step (running .async [⟨.rdstat, [0x01]⟩] [0x7E] [.fg])) = some (.returned (.field 0x00)) := by decide

/-- R44: an IRQ step between two transmitted bytes: the sink takes the second byte, the interrupt's byte is stored, the sink
takes the third. -/
theorem test_irq_between_transmitted_bytes :
    after (takeTurns [.fgInternal, .arrive 0x7E, .irq, .fgInternal] { inside (.sendCall 1) State.reset with mode := .async })
      (fun t => t.trace = [.sent 0xFF, .sent 0x06] && t.cur = 1 && t.rxb.read 0 = some 0x7E && t.txbusy) = true := by decide

/-- R204, R38: FG is refused an RXBYTE and an inbound frame, so no byte overtakes one that waits. -/
theorem test_foreground_does_not_receive :
    step (running .async [⟨.rxbyte, [0x7E]⟩] [0x41] [.fg]) = .refused .notForeground ∧
    step (running .async [⟨.inbound, [0x7E, 0xFF, 0x06, 0x3D, 0x01, 0x00, 0x00]⟩] [] [.fgInternal]) =
      .refused .notForeground := ⟨rfl, rfl⟩

/-- R229: a run is not over in ASYNC mode while a byte is still to arrive; in SYNC mode without a QUERY no byte is consumed. -/
theorem test_not_ended_before_the_last_arrival :
    ¬ Ended (running .async [] [] [.arrive 0x7E, .irq]) ∧ Ended (running .async [] [] [.irq]) ∧
    Ended (running .sync [] [] [.arrive 0x7E, .irq]) := by unfold Ended; decide

/-- A command's word runs as the first instruction after reset (V-CMD). -/
theorem test_fetch_word_command :
    bytesSentBy (step (State.reset.withFetchWord 56 0x7EFF060D010000)) =
      some [0x7E, 0xFF, 0x06, 0x0D, 0x01, 0x00, 0x00, 0xFE, 0xED, 0xEF] := by decide

/-- An inbound row's word runs as the first instruction after reset: its frame completes and is dispatched. -/
theorem test_fetch_word_inbound :
    decodeTableWord 56 0x7E000040000006 = some (.error ⟨0x00, 0x00, 0x00, 0x00, 0x06⟩) ∧
    after (step (State.reset.withFetchWord 56 0x7E000040000006)) (fun t =>
      t.status = { Status.reset with errcode := 0x06 } && t.cur = 0 && t.env.turns = []) = true := by decide

/-- Port words after reset: CKSUM (V-CK-1), SEND, RXBYTE. -/
theorem test_fetch_word_ports :
    resultOf (step (State.reset.withFetchWord 48 0xFF060601000F)) = some (.returned (.checksum (some 0xFEE5))) ∧
    bytesSentBy (step (State.reset.withFetchWord 24 0x06000F)) =
      some [0x7E, 0xFF, 0x06, 0x06, 0x01, 0x00, 0x0F, 0xFE, 0xE5, 0xEF] ∧
    after (step (State.reset.withFetchWord 8 0x7E)) (fun t => t.cur = 1 && t.rxb.read 0 = some 0x7E) = true := by decide

/-! Witnesses: for each statement with hypotheses, concrete values that meet all of them together; for one with several
clauses, one for each clause, at the ends of its ranges. -/

theorem test_witness_EncodeOfDecodeIsTheTransaction : decode ⟨.clrstat, [0x1F]⟩ = .ok (.clrstat 0x1F) := by decide

theorem test_witness_FrameSumsToZero : Variant.std ≠ .none ∧ Variant.inv ≠ .none ∧ Variant.slow ≠ .none := by decide

/-- The two ends of the range are reached (V-CK-5, V-CK-6). -/
theorem test_witness_FrameChecksumRange : Variant.slow ≠ .none ∧
    checksumOf .slow (sumOf VERSION LENGTH 0x00 ACK_REQ 0x00 0x00) = some 0xFEFA ∧
    checksumOf .slow (sumOf VERSION LENGTH 0xFF ACK_REQ 0xFF 0xFF) = some 0xFBFD := by decide

/-- Also for CommandsAreSends, QueriesAreSends and SendFillsTxbOnly. -/
theorem test_witness_SendCompletes : SendReady State.reset ∧ SendReady (under .slow) ∧ SendReady (under .none) := by
  unfold SendReady; decide

theorem test_witness_SentFrameBeginsWithTheTableRow :
    (encode (.playNext 0x00 0x00)).port = .command ∧ (encode (.query4F 0xFF 0xFF)).port = .command ∧
      SendReady State.reset := by unfold SendReady; decide

theorem test_witness_SendWhileBusyIsRefused :
    sendOpcode (.send 0x01 0x00 0x00) = some 0x01 ∧ sendOpcode (.enableDac 0x00 0x00) = some 0x1A ∧
      sendOpcode (.query4F 0x00 0x00) = some 0x4F ∧ (inside (.sendCall 0) State.reset).txbusy = true := by decide

/-- Clause 1, then clause 2. -/
theorem test_witness_SendStaysStuckWithoutAnswer :
    let s1 : State := { State.reset with env := { Env.initial with sinkReady := false } }
    let s2 : State := { under .slow with env := { Env.initial with delayReady := false } }
    (s1.txbusy = false ∧ s1.fgAt = .idle ∧ s1.env.sinkReady = false) ∧
    (s2.txbusy = false ∧ s2.fgAt = .idle ∧ s2.env.sinkReady = true ∧ s2.env.delayReady = false ∧
      s2.params.variant = .slow) := by decide

theorem test_witness_SendIsItsInternalSteps :
    let s : State := running .async [⟨.send, [0x0D, 0x00, 0x00]⟩] [] []
    SendReady s ∧ s.env.ops = ⟨.send, [0x0D, 0x00, 0x00]⟩ :: [] ∧
      SendReady { s with params := { s.params with variant := .slow } } := by unfold SendReady; decide

/-- At each point inside a SEND, with a byte that is stored and a byte that completes a frame. -/
theorem test_witness_SendCommutesWithReception :
    let s (p : FgPoint) : State := inside p (receiving .slow 9 [0x7E, 0xFF, 0x06, 0x41, 0x01, 0x00, 0x00, 0xFE, 0xB9])
    (s (.sendCall 4)).mode = .async ∧ (∀ n, (s (.sendCall 4)).fgAt ≠ .recv n) ∧
    (∃ t, fgStep (s (.encodeCall 0x0D 0x00 0x00)) = .next t) ∧ (∃ t, fgStep (s (.fill 9 0xEF [])) = .next t) ∧
    (∃ t, fgStep (s (.sendCall 4)) = .next t) ∧ (∃ t, fgStep (s .delayCall) = .next t) ∧
    (∃ t, fgStep (s .delayWait) = .next t) ∧ (∃ t, fgStep (s .sendDone) = .next t) ∧
    (∃ t, exec (.rxbyte 0xEF) (s (.sendCall 4)) = .next t) :=
  ⟨rfl, fun _ h => FgPoint.noConfusion h, ⟨_, rfl⟩, ⟨_, rfl⟩, ⟨_, rfl⟩, ⟨_, rfl⟩, ⟨_, rfl⟩, ⟨_, rfl⟩, ⟨_, rfl⟩⟩

theorem test_witness_DiscardIsTheIdentity :
    State.reset.cur = 0 ∧ (receiving .std 0 []).mode = .async ∧ (receiving .std 0 []).cur = 0 ∧ (0x7D : Byte) ≠ 0x7E ∧ (0x7F : Byte) ≠ 0x7E := by
  decide

/-- The first and the last cursor at which a byte is only stored, for both frame sizes. -/
theorem test_witness_StoreAndAdvance :
    let s0 := receiving .std 0 []
    let s8 := receiving .std 8 [0x7E]
    let s6 := receiving .none 6 [0x7E]
    (s0.mode = .async ∧ (s0.cur = 0 → (0x7E : Byte) = 0x7E) ∧ s0.cur.toNat + 1 < frameSize s0.params.variant) ∧
    (s8.mode = .async ∧ (s8.cur = 0 → (0x00 : Byte) = 0x7E) ∧ s8.cur.toNat + 1 < frameSize s8.params.variant) ∧
    (s6.mode = .async ∧ (s6.cur = 0 → (0x00 : Byte) = 0x7E) ∧ s6.cur.toNat + 1 < frameSize s6.params.variant) := by decide

/-- Also for the premises of UnknownOpcodesAreIgnored, with opcode 3E. -/
theorem test_witness_CompletionDispatchesAndResetsTheCursor :
    let s := receiving .std 9 [0x7E, 0xFF, 0x06, 0x3D, 0x01, 0x00, 0x05, 0xFE, 0xB8]
    let n := receiving .none 7 [0x7E, 0xFF, 0x06, 0x3E, 0x01, 0x00, 0x01]
    (s.mode = .async ∧ s.cur.toNat + 1 = frameSize s.params.variant ∧ s.rxb.read 3 = some 0x3D ∧
      s.rxb.read 5 = some 0x00 ∧ s.rxb.read 6 = some 0x05) ∧
    (n.mode = .async ∧ n.cur.toNat + 1 = frameSize n.params.variant ∧ n.rxb.read 3 = some 0x3E ∧
      n.rxb.read 5 = some 0x00 ∧ n.rxb.read 6 = some 0x01) := by decide

theorem test_witness_UnknownOpcodesAreIgnored :
    let n := receiving .none 7 [0x7E, 0xFF, 0x06, 0x3E, 0x01, 0x00, 0x01]
    n.mode = .async ∧ n.cur.toNat + 1 = frameSize n.params.variant ∧ n.rxb.read 3 = some 0x3E ∧
      n.rxb.read 5 = some 0x00 ∧ n.rxb.read 6 = some 0x01 ∧ (0x3E : Byte) ≠ 0x3D ∧ (0x3E : Byte) ≠ 0x3F ∧
      (0x3E : Byte) ≠ 0x40 ∧ (0x3E : Byte) ≠ 0x41 := by decide

/-- The states receiving with a frame in progress meet the invariant. -/
theorem receiving_inv {v : Variant} {c : Nat} {bytes : List Byte}
    (h : (Memory.wf (Memory.writeFrom [] 0 bytes) && decide ((BitVec.ofNat CUR_BITS c).toNat < frameSize v) &&
      (List.range (BitVec.ofNat CUR_BITS c).toNat).all fun i => (Memory.read (Memory.writeFrom [] 0 bytes) i).isSome) = true) :
    StateInv (receiving v c bytes) := by
  simp only [Bool.and_eq_true, decide_eq_true_eq, List.all_eq_true, List.mem_range] at h
  exact ⟨rfl, h.1.1, h.1.2, h.2, rfl, rfl⟩

/-- AWAITING_START, ACCUMULATING(1), ACCUMULATING(FRAME_SIZE - 1), for both frame sizes. -/
theorem test_witness_AssemblerTransitions :
    (StateInv (receiving .std 0 []) ∧ (receiving .std 0 []).mode = .async) ∧
    (StateInv (receiving .std 1 [0x7E]) ∧ (receiving .std 1 [0x7E]).mode = .async) ∧
    (StateInv (receiving .std 9 [0x7E, 0, 0, 0, 0, 0, 0, 0, 0]) ∧
      (receiving .std 9 [0x7E, 0, 0, 0, 0, 0, 0, 0, 0]).mode = .async) ∧
    (StateInv (receiving .none 7 [0x7E, 0, 0, 0, 0, 0, 0]) ∧ (receiving .none 7 [0x7E, 0, 0, 0, 0, 0, 0]).mode = .async) :=
  ⟨⟨receiving_inv (by decide), rfl⟩, ⟨receiving_inv (by decide), rfl⟩, ⟨receiving_inv (by decide), rfl⟩,
    ⟨receiving_inv (by decide), rfl⟩⟩

theorem test_witness_EncodedFrameRoundTrips :
    (receiving .std 0 []).mode = .async ∧ (receiving .std 0 []).cur = 0 ∧
      (receiving .none 0 [0x7E, 0x01]).mode = .async ∧ (receiving .none 0 [0x7E, 0x01]).cur = 0 := by decide

/-- A frame as V-RX-9 has it, over an old frame in RXB; an 8-byte frame under NONE. -/
theorem test_witness_AnyFrameCompletesWithoutStaleBytes :
    let s := receiving .std 0 [0x7E, 0xFF, 0x06, 0x40, 0x01, 0x00, 0x06, 0xFE, 0xB4, 0xEF]
    let bs : List Byte := [0x7E, 0x00, 0x00, 0x3F, 0x00, 0x00, 0x00, 0x00, 0x00, 0x00]
    let n := receiving .none 0 []
    let ns : List Byte := [0x7E, 0xFF, 0x06, 0x01, 0x01, 0x00, 0x00, 0xEF]
    (s.mode = .async ∧ s.cur = 0 ∧ bs.length = frameSize s.params.variant ∧ bs[0]? = some 0x7E) ∧
    (n.mode = .async ∧ n.cur = 0 ∧ ns.length = frameSize n.params.variant ∧ ns[0]? = some 0x7E) := by decide

/-- From CUR = 0 with ten bytes, from CUR = 9 with one. -/
theorem test_witness_AwaitingStartIsReachable :
    let bs : List Byte := [0x7E, 0x00, 0x00, 0x3F, 0x00, 0x00, 0x00, 0x00, 0x00, 0x00]
    (StateInv (receiving .std 0 []) ∧ bs.length + (receiving .std 0 []).cur.toNat = frameSize .std ∧
      bs[0]? = some 0x7E) ∧
    (StateInv (receiving .std 9 [0x7E, 0, 0, 0, 0, 0, 0, 0, 0]) ∧
      ([0x00] : List Byte).length + (receiving .std 9 [0x7E, 0, 0, 0, 0, 0, 0, 0, 0]).cur.toNat = frameSize .std ∧
      (receiving .std 9 [0x7E, 0, 0, 0, 0, 0, 0, 0, 0]).cur ≠ 0) :=
  ⟨⟨receiving_inv (by decide), by decide, by decide⟩, receiving_inv (by decide), by decide, by decide⟩

theorem test_witness_ByteWaitsInSyncMode : State.reset.mode = .sync := by decide

/-- Also for QueryAnswersChangeNoFlagInAsyncMode and QueryInAsyncModeIsRefused. -/
theorem test_witness_StatusFramesSetTheirField : (receiving .std 0 []).mode = .async := by decide

/-- With QUERY active, and without. -/
theorem test_witness_InboundFramesAnswerTheActiveQuery :
    ((inside (.recv 0) State.reset).mode = .sync ∧ (inside (.recv 0) State.reset).qactive = true) ∧
    (State.reset.mode = .sync ∧ State.reset.qactive = false) := by decide

theorem test_witness_CompletionRunsTheDecodedFrame :
    let s := receiving .std 9 [0x7E, 0xFF, 0x06, 0x43, 0x01, 0x00, 0x0F, 0xFE, 0xA8]
    let s' : State := { s with rxb := s.rxb.write s.cur.toNat 0xEF, cur := s.cur + 1 }
    s.mode = .async ∧ s.cur.toNat + 1 = frameSize s.params.variant ∧
      s'.rxb.readFrom 0 7 = some [0x7E, 0xFF, 0x06, 0x43, 0x01, 0x00, 0x0F] ∧
      decode ⟨.inbound, [0x7E, 0xFF, 0x06, 0x43, 0x01, 0x00, 0x0F]⟩ =
        .ok (.getVolumeRx ⟨0xFF, 0x06, 0x01, 0x00, 0x0F⟩) := by decide

/-- V-QU-5's stream with bytes behind the frame; no junk at all. -/
theorem test_witness_QueryResyncAnswersTheNextFrame :
    let frame : List Byte := [0x7E, 0xFF, 0x06, 0x43, 0x01, 0x00, 0x0F, 0xFE, 0xA8, 0xEF]
    let s := querying .resync ([0x00, 0xEF] ++ frame ++ [0x7E])
    (s.mode = .sync ∧ s.fgAt = .idle ∧ s.params.framing = .resync ∧ s.cur = 0 ∧
      (∀ b ∈ ([0x00, 0xEF] : List Byte), b ≠ 0x7E) ∧ frame.length = frameSize s.params.variant ∧
      frame[0]? = some 0x7E ∧ s.env.inbound = [0x00, 0xEF] ++ frame ++ [0x7E]) ∧
    (querying .resync frame).env.inbound = [] ++ frame ++ [] := by decide

/-- V-QU-10, and the last cursor of a frame. -/
theorem test_witness_QueryResyncCompletesAnUnfinishedFrame :
    let s : State := { receiving .std 3 [0x7E, 0xFF, 0x06] with
      mode := .sync, env := { Env.initial with inbound := [1, 2, 3, 4, 5, 6, 7, 8] } }
    let n : State := { receiving .none 7 [0x7E, 0, 0, 0, 0, 0, 0] with
      mode := .sync, env := { Env.initial with inbound := [0x01] } }
    (StateInv s ∧ s.mode = .sync ∧ s.fgAt = .idle ∧ s.params.framing = .resync ∧ s.cur ≠ 0 ∧
      ([1, 2, 3, 4, 5, 6, 7] : List Byte).length + s.cur.toNat = frameSize s.params.variant ∧
      s.env.inbound = [1, 2, 3, 4, 5, 6, 7] ++ [8]) ∧
    (StateInv n ∧ n.mode = .sync ∧ n.fgAt = .idle ∧ n.params.framing = .resync ∧ n.cur ≠ 0 ∧
      ([0x01] : List Byte).length + n.cur.toNat = frameSize n.params.variant ∧ n.env.inbound = [0x01] ++ []) :=
  ⟨⟨⟨rfl, by decide, by decide, (receiving_inv (v := .std) (c := 3) (bytes := [0x7E, 0xFF, 0x06]) (by decide)).2.2.2.1,
      rfl, rfl⟩, by decide⟩,
    ⟨rfl, by decide, by decide,
      (receiving_inv (v := .none) (c := 7) (bytes := [0x7E, 0, 0, 0, 0, 0, 0]) (by decide)).2.2.2.1, rfl, rfl⟩, by decide⟩

theorem test_witness_QueryBlindTakesTheNextBytes :
    let frame : List Byte := [0x00, 0xEF, 0x7E, 0xFF, 0x06, 0x43, 0x01, 0x00, 0x0F, 0xFE]
    let s := querying .blind (frame ++ [0xA8, 0xEF])
    s.mode = .sync ∧ s.fgAt = .idle ∧ s.params.framing = .blind ∧ frame.length = frameSize s.params.variant ∧
      s.env.inbound = frame ++ [0xA8, 0xEF] := by decide

theorem test_witness_ReadingsAgreeOnAlignedStreams :
    let frame : List Byte := [0x7E, 0xFF, 0x06, 0x3D, 0x01, 0x00, 0x05, 0xFE, 0xB8, 0xEF]
    let s := querying .resync (frame ++ [0x7E])
    s.mode = .sync ∧ s.fgAt = .idle ∧ s.cur = 0 ∧ frame.length = frameSize s.params.variant ∧ frame[0]? = some 0x7E ∧
      s.env.inbound = frame ++ [0x7E] := by decide

/-- No byte at all, and nine of ten, under both readings. -/
theorem test_witness_QueryStaysStuckWithoutBytes :
    let nine : List Byte := [0x7E, 0xFF, 0x06, 0x43, 0x01, 0x00, 0x0F, 0xFE, 0xA8]
    let short (s : State) : Prop := s.mode = .sync ∧ s.fgAt = .idle ∧
      s.env.inbound.length + (if s.params.framing = .resync then s.cur.toNat else 0) < frameSize s.params.variant
    (StateInv (querying .resync []) ∧ short (querying .resync [])) ∧
    (StateInv (querying .resync nine) ∧ short (querying .resync nine)) ∧
    (StateInv (querying .blind nine) ∧ short (querying .blind nine)) :=
  ⟨⟨⟨rfl, rfl, by decide, fun _ h => absurd h (by simp [querying, State.reset, State.afterPowerUp]), rfl, rfl⟩, by decide⟩,
    ⟨⟨rfl, rfl, by decide, fun _ h => absurd h (by simp [querying, State.reset, State.afterPowerUp]), rfl, rfl⟩, by decide⟩,
    ⟨⟨rfl, rfl, by decide, fun _ h => absurd h (by simp [querying, State.reset, State.afterPowerUp]), rfl, rfl⟩, by decide⟩⟩

/-- A QUERY that answers, one that blocks; a later byte inside one, under both readings. -/
theorem test_witness_QueryWritesNoStatus :
    (∃ t, exec (.query 0x43) (querying .resync [0x7E, 0xFF, 0x06, 0x43, 0x01, 0x00, 0x0F, 0xFE, 0xA8, 0xEF]) = .next t) ∧
    (∃ t, exec (.query 0x43) (querying .blind [0x7E]) = .next t) ∧
    (∃ t, (inside (.recv 0) (querying .resync [0x7E])).fgAt = .recv 0 ∧
      fgStep (inside (.recv 0) (querying .resync [0x7E])) = .next t) ∧
    (∃ t, (inside (.recv 1) (querying .blind [0x7E])).fgAt = .recv 1 ∧
      fgStep (inside (.recv 1) (querying .blind [0x7E])) = .next t) :=
  ⟨⟨_, rfl⟩, ⟨_, rfl⟩, ⟨_, rfl, rfl⟩, ⟨_, rfl, rfl⟩⟩

/-- Clause 1; clause 2 inside a SEND and inside a QUERY. -/
theorem test_witness_SetmodeWritesModeOnly :
    (State.reset.txbusy = false ∧ State.reset.qactive = false) ∧ (inside (.sendCall 0) State.reset).txbusy = true ∧
      (inside (.recv 0) State.reset).qactive = true := by decide

theorem test_witness_RdstatReturnsTheField : 5 ≤ (5 : BitVec 3).toNat ∧ 5 ≤ (7 : BitVec 3).toNat := by decide

/-- SYNC mode, ASYNC mode without a byte, ASYNC mode with bytes. -/
theorem test_witness_InterruptIsGatedByMode :
    ((running .sync [] [0x7E] [.irq]).env.turns = .irq :: [] ∧ (running .sync [] [0x7E] [.irq]).mode = .sync) ∧
    ((running .async [] [] [.irq]).mode = .async ∧ (running .async [] [] [.irq]).env.inbound = []) ∧
    ((running .async [] [0x7E, 0x00] [.irq]).mode = .async ∧
      (running .async [] [0x7E, 0x00] [.irq]).env.inbound = 0x7E :: [0x00]) := by decide

/-- By FG's turn, and with no turn named. -/
theorem test_witness_StepRunsTheDecodedOperation :
    let ops : List Txn := [⟨.query, [0x43]⟩, ⟨.rdstat, [0x01]⟩]
    Issues .fg (running .sync ops [0x7E] [.fg]) (.query 0x43) (running .sync [⟨.rdstat, [0x01]⟩] [0x7E] []) ∧
    Issues .fg (running .sync ops [0x7E] []) (.query 0x43) (running .sync [⟨.rdstat, [0x01]⟩] [0x7E] []) ∧
    Issues .fg (running .async ops [] []) (.query 0x43) (running .async [⟨.rdstat, [0x01]⟩] [] []) ∧
    Issues .fgInternal (running .sync ops [0x7E] [.fgInternal]) (.query 0x43)
      (running .sync [⟨.rdstat, [0x01]⟩] [0x7E] []) ∧ isForeground (.query 0x43) = true ∧
    Issues .fg (running .async [⟨.rxbyte, [0x7E]⟩] [0x41] [.fg]) (.rxbyte 0x7E) (running .async [] [0x41] []) ∧
    isForeground (.rxbyte 0x7E) = false :=
  ⟨⟨rfl, _, _, rfl, rfl, .inl ⟨_, rfl, rfl⟩⟩, ⟨rfl, _, _, rfl, rfl, .inr ⟨rfl, rfl, .inl rfl, rfl⟩⟩,
    ⟨rfl, _, _, rfl, rfl, .inr ⟨rfl, rfl, .inr rfl, rfl⟩⟩, ⟨rfl, _, _, rfl, rfl, .inl ⟨_, rfl, rfl⟩⟩, rfl,
    ⟨rfl, _, _, rfl, rfl, .inl ⟨_, rfl, rfl⟩⟩, rfl⟩

theorem test_witness_StepWithoutTurnsLetsIrqPreempt :
    let s := running .async [⟨.rdstat, [0x01]⟩] [0x7E] []
    s.env.turns = [] ∧ s.mode = .async ∧ s.env.inbound = 0x7E :: [] := by decide

theorem test_witness_ResetLeavesTheStatedValues :
    let s : State := { receiving .slow 3 [0x7E, 0xFF, 0x06] with env := { Env.initial with turns := [.powerUp, .fg] } }
    s.env.turns = .powerUp :: [.fg] ∧ (∃ t, step s = .next t) := ⟨rfl, _, rfl⟩

/-- Between operations, inside a SEND and inside a QUERY. Also for NoStepFaults. -/
theorem test_witness_StepKeepsTheInvariant :
    (StateInv (running .async [] [0x7E] []) ∧ ∃ t, step (running .async [] [0x7E] []) = .next t) ∧
    (StateInv (inside (.sendCall 0) State.reset) ∧ ∃ t, step (inside (.sendCall 0) State.reset) = .next t) ∧
    (StateInv (inside (.recv 0) (querying .blind [0x7E])) ∧
      ∃ t, step (inside (.recv 0) (querying .blind [0x7E])) = .next t) := by
  refine ⟨⟨⟨rfl, rfl, by decide, fun _ h => absurd h ?_, rfl, rfl⟩, _, rfl⟩,
    ⟨⟨by decide, rfl, by decide, fun _ h => absurd h ?_, rfl, rfl, ?_⟩, _, rfl⟩,
    ⟨⟨rfl, rfl, by decide, fun _ h => absurd h ?_, rfl, rfl, rfl, ?_, ?_⟩, _, rfl⟩⟩
  · simp [running, State.reset, State.afterPowerUp]
  · simp [inside, State.reset, State.afterPowerUp]
  · unfold Memory.Holds; decide
  · simp [inside, querying, State.reset, State.afterPowerUp]
  · intro h; cases h
  · exact fun _ => ⟨by decide, fun _ h => absurd h (Nat.not_lt_zero _)⟩

theorem test_witness_StepKeepsStartAtTheHead :
    let s : State := { receiving .std 1 [0x7E] with env := { Env.initial with inbound := [0x00] } }
    (s.params.framing = .resync ∧ 0 < s.cur.toNat ∧ StartInv s) ∧ ∃ t, step s = .next t :=
  ⟨⟨rfl, by decide, fun _ _ => rfl⟩, _, rfl⟩

theorem test_witness_ConfigurationIsNeverWritten : ∃ t, step (running .sync [⟨.setmode, [0x01]⟩] [] [.fg]) = .next t :=
  ⟨_, rfl⟩

/-- By SETMODE, and by power-up. -/
theorem test_witness_ModeIsWrittenBySetmodeOrReset :
    (∃ t, step (running .sync [⟨.setmode, [0x01]⟩] [] [.fg]) = .next t ∧ t.mode ≠ Mode.sync) ∧
    (∃ t, step (running .async [] [] [.powerUp]) = .next t ∧ t.mode ≠ Mode.async) :=
  ⟨⟨_, rfl, by decide⟩, _, rfl, by decide⟩

/-- Each flag falls, by CLRSTAT with its bit alone, and by power-up. -/
theorem test_witness_FlagsFallByClrstatOrReset :
    let s (mask : Byte) : State := { running .sync [⟨.clrstat, [mask]⟩] [] [.fg] with status := ⟨true, true, true, 0, 0⟩ }
    let p : State := { running .sync [] [] [.powerUp] with status := ⟨true, true, true, 0, 0⟩ }
    (∃ t, step (s 0x01) = .next t ∧ (s 0x01).status.ready = true ∧ t.status.ready = false) ∧
    (∃ t, step (s 0x02) = .next t ∧ (s 0x02).status.done = true ∧ t.status.done = false) ∧
    (∃ t, step (s 0x04) = .next t ∧ (s 0x04).status.ok = true ∧ t.status.ok = false) ∧
    (∃ t, step p = .next t ∧ p.status.ok = true ∧ t.status.ready = false ∧ t.status.done = false ∧ t.status.ok = false) :=
  ⟨⟨_, rfl, rfl, rfl⟩, ⟨_, rfl, rfl, rfl⟩, ⟨_, rfl, rfl, rfl⟩, _, rfl, rfl, rfl, rfl, rfl⟩

/-- One instruction for each premise: no SEND; neither RXBYTE nor QUERY; none that writes the status; no SETMODE. -/
theorem test_witness_InstructionsWriteOnlyTheirState :
    (∃ t, exec (.rxbyte 0x7E) (receiving .std 0 []) = .next t ∧ sendOpcode (.rxbyte 0x7E) = none) ∧
    (∃ t, exec (.send 0x0D 0x00 0x00) (receiving .std 0 []) = .next t ∧ (∀ b, Instr.send 0x0D 0x00 0x00 ≠ .rxbyte b) ∧
      (∀ e, Instr.send 0x0D 0x00 0x00 ≠ .query e) ∧ (∀ m, Instr.send 0x0D 0x00 0x00 ≠ .clrstat m) ∧
      (encode (.send 0x0D 0x00 0x00)).port ≠ .inbound ∧ (∀ m, Instr.send 0x0D 0x00 0x00 ≠ .setmode m)) :=
  ⟨⟨_, rfl, rfl⟩, _, rfl, fun _ h => Instr.noConfusion h, fun _ h => Instr.noConfusion h,
    fun _ h => Instr.noConfusion h, by decide, fun _ h => Instr.noConfusion h⟩

/-- V-RX-7: the stall after five bytes. -/
theorem test_witness_CursorStallsWithoutBytes :
    let s := receiving .std 5 [0x7E, 0xFF, 0x06, 0x41, 0x01]
    (∃ t, step s = .next t) ∧ ¬ PowersUp s ∧ s.env.inbound = [] :=
  ⟨⟨_, rfl⟩, fun ⟨_, h⟩ => (by cases h), rfl⟩

/-- The three places where FG blocks, the first in ASYNC mode. -/
theorem test_witness_StuckIsNotEnded :
    let a : State := { inside (.sendCall 9) State.reset with mode := .async, env := { Env.initial with sinkReady := false } }
    let b : State := { inside .delayWait (under .slow) with env := { Env.initial with delayReady := false } }
    (StateInv a ∧ FgBlocked a ∧ a.fgAt = .sendCall 9 ∧ a.mode = .async) ∧ (StateInv b ∧ FgBlocked b ∧ b.fgAt = .delayWait) ∧
      (StateInv (inside (.recv 0) State.reset) ∧ FgBlocked (inside (.recv 0) State.reset)) := by
  refine ⟨⟨⟨by decide, rfl, by decide, fun _ h => absurd h ?_, rfl, rfl, by decide, ?_⟩, .inl ⟨⟨_, rfl⟩, rfl⟩, rfl, rfl⟩,
    ⟨⟨rfl, rfl, by decide, fun _ h => absurd h ?_, rfl, rfl, rfl⟩, .inr (.inl ⟨rfl, rfl⟩), rfl⟩,
    ⟨⟨rfl, rfl, by decide, fun _ h => absurd h ?_, rfl, rfl, rfl, fun _ => rfl, ?_⟩, .inr (.inr ⟨⟨_, rfl⟩, rfl⟩)⟩⟩
  · simp [inside, State.reset, State.afterPowerUp]
  · unfold Memory.Holds; decide
  · simp [inside, under, State.reset, State.afterPowerUp]
  · simp [inside, State.reset, State.afterPowerUp]
  · intro h; cases h

/-- Clause 1 inside a QUERY, clause 2 inside a SEND. -/
theorem test_witness_OperationsDoNotOverlap :
    ((inside (.recv 0) State.reset).fgAt ≠ .idle ∧ sendOpcode (.play 0x00 0x00) = some 0x0D ∧
      (inside (.recv 0) State.reset).txbusy = false) ∧
    ((inside (.sendCall 0) State.reset).fgAt ≠ .idle ∧ (inside (.sendCall 0) State.reset).mode = .sync) := by decide

theorem test_witness_UndecodableTransactionsAreRefused :
    let s := running .sync [commandTxn 0x1B 0x00 0x00] [] [.fg]
    s.fgAt = .idle ∧ s.env.ops = commandTxn 0x1B 0x00 0x00 :: [] ∧ s.env.turns = .fg :: [] ∧
      decode (commandTxn 0x1B 0x00 0x00) = .error .unlistedCommand := by decide

end Sys2Proof.Tests
end

section
/-! SUPPORT. Checksum Policy (40_checksum.md): CKSUM's 16-bit words are R75's formulas on integers. Settles O5. -/

namespace Sys2Proof.Machine

/-- CKSUM's arm, with the sum and the checksum left folded. -/
theorem exec_cksum (b1 b2 b3 b4 b5 b6 : Byte) (s : State) :
    exec (.cksum b1 b2 b3 b4 b5 b6) s =
      .next (s.record (.returned (.checksum (checksumOf s.params.variant (sumOf b1 b2 b3 b4 b5 b6))))) := by
  rfl

/-- Six bytes add to at most 1530 (R75), far below a borrow in INV's subtraction from 0xFFFF. -/
theorem sumOf_le (b1 b2 b3 b4 b5 b6 : Byte) : sumOf b1 b2 b3 b4 b5 b6 ≤ 1530 := by
  unfold sumOf
  omega

/-- A 16-bit word already counts modulo 65536, so the formulas' own `mod 65536` does not change it. -/
theorem ofInt_emod_65536 (x : Int) : BitVec.ofInt 16 (x % 65536) = BitVec.ofInt 16 x := by
  apply BitVec.eq_of_toInt_eq
  rw [BitVec.toInt_ofInt, BitVec.toInt_ofInt]
  exact Int.emod_bmod x (2 ^ 16)

/-- STD's and SLOW's formula (R76, R77). -/
theorem zero_sub_ofNat_eq_ofInt_emod (n : Nat) :
    0 - BitVec.ofNat 16 n = BitVec.ofInt 16 ((0 - (n : Int)) % 65536) := by
  rw [ofInt_emod_65536, Int.zero_sub, BitVec.ofInt_neg, BitVec.ofInt_natCast]
  exact BitVec.zero_sub _

/-- INV's formula (R78). The bound is what makes the model's natural subtraction the integer one. -/
theorem ofNat_ones_sub_eq_ofInt_emod {n : Nat} (hn : n ≤ 0xFFFF) :
    BitVec.ofNat 16 (0xFFFF - n + 1) = BitVec.ofInt 16 ((0xFFFF - (n : Int) + 1) % 65536) := by
  have hcast : (0xFFFF - (n : Int) + 1) = ((0xFFFF - n + 1 : Nat) : Int) := by omega
  rw [ofInt_emod_65536, hcast, BitVec.ofInt_natCast]

/-- Each variant's checksum is its formula (R75), for every sum INV can subtract from 0xFFFF. -/
theorem checksumOf_eq_checksumByFormula (v : Variant) {n : Nat} (hn : n ≤ 0xFFFF) :
    checksumOf v n = checksumByFormula v n := by
  cases v with
  | std => exact congrArg some (zero_sub_ofNat_eq_ofInt_emod n)
  | inv => exact congrArg some (ofNat_ones_sub_eq_ofInt_emod hn)
  | slow => exact congrArg some (zero_sub_ofNat_eq_ofInt_emod n)
  | none => rfl

/-- Settles O5: six bytes cannot exceed 0xFFFF, so each variant's word is its integer formula; the record is the one field
CKSUM's arm writes. -/
theorem cksumAnswersTheFormula : Obligations.CksumAnswersTheFormula := by
  intro b1 b2 b3 b4 b5 b6 s
  have hsum : sumOf b1 b2 b3 b4 b5 b6 ≤ 0xFFFF := (sumOf_le b1 b2 b3 b4 b5 b6).trans (by decide)
  rw [exec_cksum, checksumOf_eq_checksumByFormula s.params.variant hsum]
  rfl

end Sys2Proof.Machine
end

section
/-! SUPPORT. Frame Encoder (41_frame_encoder.md): the frame ENCODE builds is the wire frame in closed form (R83, R85, R86, R135).
Settles O9. -/

namespace Sys2Proof.Machine

/-- ENCODE's arm, with the frame left folded. -/
theorem exec_encode (op dh dl : Byte) (s : State) :
    exec (.encode op dh dl) s = .next (s.record (.returned (.frame (encodeFrame s.params.variant op dh dl)))) := by
  rfl

/-- The three constant bytes under the checksum, `FF`, `06` and `01`, add to `0x106`. -/
theorem sumOf_command (op dh dl : Byte) :
    sumOf VERSION LENGTH op ACK_REQ dh dl = 0x106 + op.toNat + dh.toNat + dl.toNat := by
  have hV : VERSION.toNat = 0xFF := rfl
  have hL : LENGTH.toNat = 0x06 := rfl
  have hA : ACK_REQ.toNat = 0x01 := rfl
  rw [sumOf, hV, hL, hA]
  omega

/-- STD's and SLOW's word (R76, R77) for a sum that a 16-bit word holds. -/
theorem zero_sub_ofNat_eq_ofNat_sub {n : Nat} (hn : n ≤ 0xFFFF) :
    0 - BitVec.ofNat 16 n = BitVec.ofNat 16 (65536 - n) := by
  apply BitVec.eq_of_toNat_eq
  simp only [BitVec.ofNat_eq_ofNat, BitVec.zero_sub, BitVec.toNat_neg, BitVec.toNat_ofNat]
  omega

/-- Every checksummed variant's word is the 16-bit complement of the sum (R76 to R78). -/
theorem checksumOf_eq_ofNat_sub {v : Variant} (hv : v ≠ .none) {n : Nat} (hn : n ≤ 0xFFFF) :
    checksumOf v n = some (BitVec.ofNat 16 (65536 - n)) := by
  cases v with
  | std => exact congrArg some (zero_sub_ofNat_eq_ofNat_sub hn)
  | slow => exact congrArg some (zero_sub_ofNat_eq_ofNat_sub hn)
  | inv =>
    have hsub : 0xFFFF - n + 1 = 65536 - n := by omega
    exact congrArg (some ∘ BitVec.ofNat 16) hsub
  | none => exact absurd rfl hv

/-- The checksum of a frame UFE builds, in R135's closed form. -/
theorem checksumOf_command {v : Variant} (hv : v ≠ .none) (op dh dl : Byte) :
    checksumOf v (sumOf VERSION LENGTH op ACK_REQ dh dl) = some (BitVec.ofNat 16 (commandChecksum op dh dl)) := by
  have hsum : sumOf VERSION LENGTH op ACK_REQ dh dl ≤ 0xFFFF := (sumOf_le _ _ _ _ _ _).trans (by decide)
  rw [checksumOf_eq_ofNat_sub hv hsum, sumOf_command, commandChecksum]
  exact congrArg some (BitVec.eq_of_toNat_eq (by simp))

/-- R62's high byte, for a word given as a number. -/
theorem highByte_ofNat {n : Nat} (hn : n < 65536) : highByte (BitVec.ofNat 16 n) = BitVec.ofNat 8 (n / 256) := by
  apply BitVec.eq_of_toNat_eq
  simp only [highByte, BitVec.extractLsb'_toNat, BitVec.toNat_ofNat, Nat.shiftRight_eq_div_pow]
  omega

/-- R62's low byte, for a word given as a number. -/
theorem lowByte_ofNat (n : Nat) : lowByte (BitVec.ofNat 16 n) = BitVec.ofNat 8 (n % 256) := by
  apply BitVec.eq_of_toNat_eq
  simp only [lowByte, BitVec.extractLsb'_toNat, BitVec.toNat_ofNat, Nat.shiftRight_zero]
  omega

theorem commandChecksum_lt (op dh dl : Byte) : commandChecksum op dh dl < 65536 :=
  Nat.mod_lt _ (by decide)

/-- Under NONE no checksum bytes are produced (R86). -/
theorem encodeFrame_none (op dh dl : Byte) :
    encodeFrame .none op dh dl = [START, VERSION, LENGTH, op, ACK_REQ, dh, dl, END] := by
  rfl

/-- Under a checksummed variant the two bytes of the checksum stand before END (R85). -/
theorem encodeFrame_of_checksum {v : Variant} {op dh dl : Byte} {ck : Word16}
    (h : checksumOf v (sumOf VERSION LENGTH op ACK_REQ dh dl) = some ck) :
    encodeFrame v op dh dl = [START, VERSION, LENGTH, op, ACK_REQ, dh, dl, highByte ck, lowByte ck, END] := by
  rw [encodeFrame, h]

theorem wireFrame_of_ne_none {v : Variant} (hv : v ≠ .none) (op dh dl : Byte) :
    wireFrame v op dh dl = [START, VERSION, LENGTH, op, ACK_REQ, dh, dl, BitVec.ofNat 8 (commandChecksum op dh dl / 256),
      BitVec.ofNat 8 (commandChecksum op dh dl % 256), END] := by
  cases v with
  | none => exact absurd rfl hv
  | std | inv | slow => rfl

/-- The frame the Encoder builds byte by byte is the wire frame in closed form (R135). -/
theorem encodeFrame_eq_wireFrame (v : Variant) (op dh dl : Byte) : encodeFrame v op dh dl = wireFrame v op dh dl := by
  by_cases hv : v = .none
  · subst hv
    exact encodeFrame_none op dh dl
  · rw [encodeFrame_of_checksum (checksumOf_command hv op dh dl), highByte_ofNat (commandChecksum_lt op dh dl),
      lowByte_ofNat, wireFrame_of_ne_none hv]

theorem wireFrame_length (v : Variant) (op dh dl : Byte) :
    (wireFrame v op dh dl).length = if v = .none then 8 else 10 := by
  cases v <;> rfl

/-- Settles O9: the arm records the Encoder's frame and nothing else, and that frame is the wire frame. -/
theorem encodeAnswersTheFrame : Obligations.EncodeAnswersTheFrame := by
  intro op dh dl s
  refine ⟨?_, wireFrame_length s.params.variant op dh dl⟩
  rw [exec_encode, encodeFrame_eq_wireFrame]
  rfl

end Sys2Proof.Machine
end

section
/-! SUPPORT. Frame Assembler (42_frame_assembler.md): RXBYTE in ASYNC mode, one byte and a whole frame of bytes (R97 to R102,
R108, R109). Settles O20, O22, O23, O25. -/

namespace Sys2Proof.Machine

/-- In ASYNC mode RXBYTE is the Assembler's step with DISPATCH as its `on_complete` (R97, R200). -/
theorem exec_rxbyte_async {s : State} (hm : s.mode = .async) (b : Byte) :
    exec (.rxbyte b) s = assemble (withFrame dispatch) b s := by
  change execRxbyte b s = _
  rw [execRxbyte, hm]
  rfl

theorem cur_eq_zero_iff (c : BitVec CUR_BITS) : c = 0 ↔ c.toNat = 0 :=
  BitVec.toNat_inj.symm

/-- At the cursor of a frame's last byte there is no START test to pass, and the byte can be stored. -/
theorem cur_of_last {s : State} (hl : s.cur.toNat + 1 = frameSize s.params.variant) :
    s.cur ≠ 0 ∧ 7 ≤ s.cur.toNat ∧ s.cur.toNat < BUF_SIZE := by
  obtain ⟨h8, h10⟩ := frameSize_bounds s.params.variant
  rw [Ne, cur_eq_zero_iff]
  omega

/-- R101's order, for an `on_complete` that may also stop: store and advance, `on_complete`, then CUR <- 0. -/
theorem assemble_last {s : State} (hl : s.cur.toNat + 1 = frameSize s.params.variant) (k : State → Answer) (b : Byte) :
    assemble k b s = andThen (k (storeAndAdvance b s)) fun u => .next (u.setCur 0) := by
  obtain ⟨h0, -, hb⟩ := cur_of_last hl
  rw [assemble, if_neg fun h => h0 h.1, if_pos hb, storeAndAdvance_cur, cur_advance hb, if_pos hl]

/-- In ASYNC mode the byte that completes a frame is stored, CUR returns to 0 and the status is DISPATCH's on the frame as
stored (R101, R114). -/
theorem exec_rxbyte_last {b op dh dl : Byte} {s : State} (hm : s.mode = .async)
    (hl : s.cur.toNat + 1 = frameSize s.params.variant) (h3 : (s.rxb.write s.cur.toNat b).read 3 = some op)
    (h5 : (s.rxb.write s.cur.toNat b).read 5 = some dh) (h6 : (s.rxb.write s.cur.toNat b).read 6 = some dl) :
    exec (.rxbyte b) s = .next { s with
      rxb := s.rxb.write s.cur.toNat b, cur := 0, status := dispatchStatus s.params.srcRule op dh dl s.status } := by
  have hk : withFrame dispatch (storeAndAdvance b s) = .next (dispatch op dh dl (storeAndAdvance b s)) :=
    withFrame_of_read h3 h5 h6
  rw [exec_rxbyte_async hm, assemble_last hl, hk]
  rfl

/-- The last index of a frame lies behind OPCODE, DATA_HIGH and DATA_LOW, so storing there keeps what DISPATCH reads. -/
theorem read_write_last {s : State} (hl : s.cur.toNat + 1 = frameSize s.params.variant) {i : Nat} (hi : i ≤ 6) (b : Byte) :
    (s.rxb.write s.cur.toNat b).read i = s.rxb.read i := by
  obtain ⟨-, h7, -⟩ := cur_of_last hl
  exact Memory.read_write_other (by omega)

/-- The Assembler's cursor after a step (R102): three named transitions, whatever the `on_complete`. -/
theorem assemble_cursor {k : State → Answer} {b : Byte} {s t : State} (hc : s.cur.toNat < frameSize s.params.variant)
    (h : assemble k b s = .next t) :
    t.cur.toNat =
      if s.cur.toNat = 0 then (if b = START then 1 else 0)
      else if s.cur.toNat < frameSize s.params.variant - 1 then s.cur.toNat + 1 else 0 := by
  have h8 := (frameSize_bounds s.params.variant).1
  rcases assemble_cases h with ⟨h0, hb, rfl⟩ | ⟨hs, hb, hl, rfl⟩ | ⟨-, -, hl, u, -, rfl⟩
  case inl => rw [cur_eq_zero_iff] at h0; rw [if_pos h0, if_neg hb, h0]
  case inr.inl =>
    rw [storeAndAdvance_cur, cur_advance hb]
    by_cases h0 : s.cur.toNat = 0
    · rw [if_pos h0, if_pos (hs ((cur_eq_zero_iff _).mpr h0)), h0]
    · rw [if_neg h0, if_pos (by omega)]
  case inr.inr =>
    rw [State.setCur_cur, if_neg (by omega), if_neg (by omega)]
    rfl

/-- Where every byte below CUR has a value (R33 (c)), RXBYTE in ASYNC mode never stops: a frame that completes can be
dispatched. -/
theorem exec_rxbyte_async_answers {s : State} (hm : s.mode = .async) (hc : s.cur.toNat < frameSize s.params.variant)
    (hh : s.rxb.Holds s.cur.toNat) (b : Byte) : ∃ t, exec (.rxbyte b) s = .next t := by
  by_cases hd : s.cur = 0 ∧ b ≠ START
  · exact ⟨s, exec_rxbyte_async hm b ▸ assemble_discard hd.1 hd.2⟩
  · have hs : s.cur = 0 → b = START := fun h0 => not_not.mp fun hb => hd ⟨h0, hb⟩
    by_cases hl : s.cur.toNat + 1 = frameSize s.params.variant
    · have hf : (storeAndAdvance b s).rxb.Holds (frameSize s.params.variant) := hl ▸ hh.write_next
      obtain ⟨op, dh, dl, h3, h5, h6, -⟩ := withFrame_of_holds (k := dispatch) hf
      exact ⟨_, exec_rxbyte_last hm hl h3 h5 h6⟩
    · have hb : s.cur.toNat < BUF_SIZE := hc.trans_le (frameSize_bounds s.params.variant).2
      exact ⟨_, exec_rxbyte_async hm b ▸ assemble_store hs hb hl⟩

/-- The bytes that a frame still wants, fed in ASYNC mode, complete it (R97, R101): they stand in RXB from the cursor on, the
status is DISPATCH's on the frame as stored, and nothing else has changed. -/
theorem feed_completes {bs : List Byte} {op dh dl : Byte} {s : State} (hm : s.mode = .async) (hne : bs ≠ [])
    (hlen : s.cur.toNat + bs.length = frameSize s.params.variant) (hs : s.cur = 0 → bs[0]? = some START)
    (h3 : (s.rxb.writeFrom s.cur.toNat bs).read 3 = some op) (h5 : (s.rxb.writeFrom s.cur.toNat bs).read 5 = some dh)
    (h6 : (s.rxb.writeFrom s.cur.toNat bs).read 6 = some dl) :
    feed bs s = .next { s with
      rxb := s.rxb.writeFrom s.cur.toNat bs, cur := 0, status := dispatchStatus s.params.srcRule op dh dl s.status } := by
  induction bs generalizing s with
  | nil => exact absurd rfl hne
  | cons b rest ih =>
    rw [List.length_cons] at hlen
    rw [feed]
    by_cases hr : rest = []
    · subst hr
      rw [exec_rxbyte_last hm hlen h3 h5 h6]
      rfl
    · have hpos : 0 < rest.length := List.length_pos_iff.mpr hr
      have hb : s.cur.toNat < BUF_SIZE := by
        have := (frameSize_bounds s.params.variant).2
        omega
      have hstore : exec (.rxbyte b) s = .next (storeAndAdvance b s) :=
        exec_rxbyte_async hm b ▸ assemble_store (fun h0 => Option.some.inj (hs h0)) hb (by omega)
      have hadv : (storeAndAdvance b s).cur.toNat = s.cur.toNat + 1 := cur_advance hb
      have hmem : (storeAndAdvance b s).rxb.writeFrom (storeAndAdvance b s).cur.toNat rest =
          s.rxb.writeFrom s.cur.toNat (b :: rest) := by rw [hadv]; rfl
      have hlen' : (storeAndAdvance b s).cur.toNat + rest.length = frameSize s.params.variant := by omega
      have hs' : (storeAndAdvance b s).cur = 0 → rest[0]? = some START := fun h0 => by
        rw [cur_eq_zero_iff] at h0
        omega
      rw [hstore, andThen_next, ih (s := storeAndAdvance b s) hm hr hlen' hs' (hmem ▸ h3) (hmem ▸ h5) (hmem ▸ h6), hmem]
      rfl

/-- Settles O20: the byte fails the START test of the Assembler's first line, which stands before any `on_complete`. -/
theorem discardIsTheIdentity : Obligations.DiscardIsTheIdentity := by
  intro b s h0 hb
  refine ⟨fun k => assemble_discard h0 hb, fun hm => ?_⟩
  rw [exec_rxbyte_async hm]
  exact assemble_discard h0 hb

/-- Settles O22: the step is R101's order for any `on_complete`; in ASYNC mode DISPATCH reads three bytes that the last store
does not reach. -/
theorem completionDispatchesAndResetsTheCursor : Obligations.CompletionDispatchesAndResetsTheCursor := by
  intro b s hl
  have hidx : frameSize s.params.variant - 1 = s.cur.toNat := by omega
  rw [hidx]
  refine ⟨fun k => assemble_last hl k b, fun op dh dl hm h3 h5 h6 => ?_⟩
  have hread : ∀ i ≤ 6, (s.rxb.write s.cur.toNat b).read i = s.rxb.read i := fun i hi => read_write_last hl hi b
  refine ⟨_, exec_rxbyte_last hm hl ((hread 3 (by decide)).trans h3) ((hread 5 (by decide)).trans h5)
    ((hread 6 (by decide)).trans h6), rfl, Memory.read_write_same _ _ _, fun a ha => Memory.read_write_other ha⟩

/-- Settles O23: the cursor's transitions are those of any answered step, and the invariant keeps DISPATCH from a byte without
a value. -/
theorem assemblerTransitions : Obligations.AssemblerTransitions := by
  rintro b s ⟨-, -, hc, hh, -⟩
  refine ⟨fun k t h => assemble_cursor hc h, fun hm => ?_⟩
  obtain ⟨t, ht⟩ := exec_rxbyte_async_answers hm hc hh b
  exact ⟨t, ht, assemble_cursor hc (exec_rxbyte_async hm b ▸ ht)⟩

/-- Settles O25: the bytes are written over every index below FRAME_SIZE before DISPATCH reads any, so nothing old is read. -/
theorem anyFrameCompletesWithoutStaleBytes : Obligations.AnyFrameCompletesWithoutStaleBytes := by
  intro bs s hm h0 hlen hstart
  have h8 := (frameSize_bounds s.params.variant).1
  have hc : s.cur.toNat = 0 := (cur_eq_zero_iff _).mp h0
  have hnew : ∀ i < bs.length, (s.rxb.writeFrom s.cur.toNat bs).read i = bs[i]? := fun i hi => by
    rw [hc, Memory.read_writeFrom, if_pos (by omega), Nat.sub_zero]
  have hold : ∀ i, bs.length ≤ i → (s.rxb.writeFrom s.cur.toNat bs).read i = s.rxb.read i := fun i hi => by
    rw [hc, Memory.read_writeFrom, if_neg (by omega)]
  have h3 : bs[3]? = some bs[3] := List.getElem?_eq_getElem (by omega)
  have h5 : bs[5]? = some bs[5] := List.getElem?_eq_getElem (by omega)
  have h6 : bs[6]? = some bs[6] := List.getElem?_eq_getElem (by omega)
  have hfeed := feed_completes hm (List.ne_nil_of_length_pos (by omega)) (by omega) (fun _ => hstart)
    ((hnew 3 (by omega)).trans h3) ((hnew 5 (by omega)).trans h5) ((hnew 6 (by omega)).trans h6)
  refine ⟨_, bs[3], bs[5], bs[6], hfeed, h3, h5, h6, hlen ▸ hnew, hlen ▸ hold, ?_⟩
  rw [← h0]

end Sys2Proof.Machine
end

section
/-! SUPPORT. The decoder and the encoder (30_encoding.md) are inverse to each other, and the opcodes that have rows (R63 to R70,
R178). Settles O1, O2, O3, O4. -/

namespace Sys2Proof.Machine

theorem eq_ofNat_of_toNat_eq {op : Byte} {n : Nat} (h : op.toNat = n) : op = BitVec.ofNat 8 n := by
  rw [← h, BitVec.ofNat_toNat, BitVec.setWidth_eq]

/-- What the tables R64 and R66 say of a named command or query: its encoding, and that its arm is the SEND of its opcode
(R135). -/
theorem commandOf_eq_some {op dh dl : Byte} {i : Instr} (h : commandOf op dh dl = some i) :
    encode i = commandTxn op dh dl ∧ ∀ s, exec i s = sendFrame op dh dl s := by
  unfold commandOf at h
  split at h <;> cases h
  all_goals
    next hop =>
      obtain rfl := eq_ofNat_of_toNat_eq hop
      exact ⟨rfl, fun _ => rfl⟩

/-- What the table R66 says of a query's answer: its encoding, and that its arm is the Response Interpreter's reading. -/
theorem queryAnswerOf_eq_some {op : Byte} {f : RxFields} {i : Instr} (h : queryAnswerOf op f = some i) :
    encode i = responseTxn op f ∧ ∀ s, exec i s = .next (interpret op f.dh f.dl s) := by
  unfold queryAnswerOf at h
  split at h <;> cases h
  all_goals
    next hop =>
      obtain rfl := eq_ofNat_of_toNat_eq hop
      exact ⟨rfl, fun _ => rfl⟩

/-- The same of every inbound row: the status frames of R65 and the answers of R66. -/
theorem responseOf_eq_some {op : Byte} {f : RxFields} {i : Instr} (h : responseOf op f = some i) :
    encode i = responseTxn op f ∧ ∀ s, exec i s = .next (interpret op f.dh f.dl s) := by
  unfold responseOf at h
  split_ifs at h with h1 h2 h3 h4
  · cases h; subst h1; exact ⟨rfl, fun _ => rfl⟩
  · cases h; subst h2; exact ⟨rfl, fun _ => rfl⟩
  · cases h; subst h3; exact ⟨rfl, fun _ => rfl⟩
  · cases h; subst h4; exact ⟨rfl, fun _ => rfl⟩
  · exact queryAnswerOf_eq_some h

theorem commandOf_eq_none_iff (op dh dl : Byte) :
    commandOf op dh dl = none ↔ ¬ (1 ≤ op.toNat ∧ op.toNat ≤ 0x1A ∨ 0x42 ≤ op.toNat ∧ op.toNat ≤ 0x4F) := by
  unfold commandOf
  split
  case h_41 => simp only [imp_false] at *; simp only [true_iff]; omega
  all_goals simp [*]

theorem queryAnswerOf_eq_none_iff (op : Byte) (f : RxFields) :
    queryAnswerOf op f = none ↔ ¬ (0x42 ≤ op.toNat ∧ op.toNat ≤ 0x4F) := by
  unfold queryAnswerOf
  split
  case h_15 => simp only [imp_false] at *; simp only [true_iff]; omega
  all_goals simp [*]

theorem responseOf_eq_none_iff (op : Byte) (f : RxFields) :
    responseOf op f = none ↔ ¬ (op.toNat = 0x3D ∨ 0x3F ≤ op.toNat ∧ op.toNat ≤ 0x4F) := by
  unfold responseOf
  split_ifs with h1 h2 h3 h4
  · subst h1; decide
  · subst h2; decide
  · subst h3; decide
  · subst h4; decide
  · rw [queryAnswerOf_eq_none_iff]
    have n1 : op.toNat ≠ 0x3D := fun h => h1 (eq_ofNat_of_toNat_eq h)
    have n2 : op.toNat ≠ 0x3F := fun h => h2 (eq_ofNat_of_toNat_eq h)
    have n3 : op.toNat ≠ 0x40 := fun h => h3 (eq_ofNat_of_toNat_eq h)
    have n4 : op.toNat ≠ 0x41 := fun h => h4 (eq_ofNat_of_toNat_eq h)
    omega

/-- The seven fixed and free bytes of a named command are decoded by OPCODE alone (R63). -/
theorem decode_commandTxn_unlisted_iff (op dh dl : Byte) :
    decode (commandTxn op dh dl) = .error .unlistedCommand ↔ commandOf op dh dl = none := by
  change decodeCommand START VERSION LENGTH op ACK_REQ dh dl = _ ↔ _
  rw [decodeCommand, if_pos ⟨rfl, rfl, rfl, rfl⟩]
  cases commandOf op dh dl <;> simp

theorem decode_responseTxn_unlisted_iff (op : Byte) (f : RxFields) :
    decode (responseTxn op f) = .error .unlistedResponse ↔ responseOf op f = none := by
  change decodeInbound START f.version f.length op f.ackFlag f.dh f.dl = _ ↔ _
  rw [decodeInbound, if_pos rfl]
  cases responseOf op f <;> simp

/-- An outbound transaction that decodes has the fixed bytes of a command and a listed opcode (R63). -/
theorem decodeCommand_eq_ok {b0 b1 b2 op b4 dh dl : Byte} {i : Instr} (h : decodeCommand b0 b1 b2 op b4 dh dl = .ok i) :
    (b0 = START ∧ b1 = VERSION ∧ b2 = LENGTH ∧ b4 = ACK_REQ) ∧ commandOf op dh dl = some i := by
  unfold decodeCommand at h
  split at h
  · next hfix =>
    split at h
    · next hc => cases h; exact ⟨hfix, hc⟩
    · cases h
  · cases h

/-- An inbound transaction that decodes begins with START and has a listed opcode (R63). -/
theorem decodeInbound_eq_ok {b0 b1 b2 op b4 dh dl : Byte} {i : Instr} (h : decodeInbound b0 b1 b2 op b4 dh dl = .ok i) :
    b0 = START ∧ responseOf op ⟨b1, b2, b4, dh, dl⟩ = some i := by
  unfold decodeInbound at h
  split at h
  · next hfix =>
    split at h
    · next hc => cases h; exact ⟨hfix, hc⟩
    · cases h
  · cases h

theorem encode_setmode_of_modeOf {b : Byte} {m : Mode} (h : modeOf b = some m) :
    encode (.setmode m) = ⟨.setmode, [b]⟩ := by
  unfold modeOf at h
  split at h <;> cases h
  all_goals
    next hb =>
      obtain rfl := eq_ofNat_of_toNat_eq hb
      rfl

/-- A byte that fits a narrower operand word comes back from it (R70). -/
theorem setWidth_setWidth_of_lt {n : Nat} {b : Byte} (h : b.toNat < 2 ^ n) : (b.setWidth n).setWidth 8 = b := by
  apply BitVec.eq_of_toNat_eq
  rw [BitVec.toNat_setWidth, BitVec.toNat_setWidth, Nat.mod_eq_of_lt h, Nat.mod_eq_of_lt b.isLt]

/-- An operand word of at most 8 bits comes back from the byte it stands in (R70, log 13). -/
theorem setWidth_byte_setWidth {n : Nat} (hn : n ≤ 8) (w : BitVec n) :
    (w.setWidth 8).toNat < 2 ^ n ∧ (w.setWidth 8).setWidth n = w := by
  have hw : (w.setWidth 8).toNat = w.toNat := by
    rw [BitVec.toNat_setWidth, Nat.mod_eq_of_lt (w.isLt.trans_le (Nat.pow_le_pow_right (by decide) hn))]
  refine ⟨hw ▸ w.isLt, BitVec.eq_of_toNat_eq ?_⟩
  rw [BitVec.toNat_setWidth, hw, Nat.mod_eq_of_lt w.isLt]

/-- Settles O1: each row's encoding decodes by computation; only the operand words narrower than a byte need an argument. -/
theorem decodeOfEncodeIsTheInstruction : Obligations.DecodeOfEncodeIsTheInstruction := by
  intro i
  cases i
  case clrstat mask =>
    obtain ⟨hlt, hback⟩ := setWidth_byte_setWidth (by decide) mask
    change (if (mask.setWidth 8).toNat < 2 ^ 5 then _ else _) = _
    rw [if_pos hlt, hback]
  case rdstat f =>
    obtain ⟨hlt, hback⟩ := setWidth_byte_setWidth (by decide) f
    change (if (f.setWidth 8).toNat < 2 ^ 3 then _ else _) = _
    rw [if_pos hlt, hback]
  case setmode m => cases m <;> rfl
  all_goals rfl

/-- Settles O2: along the decoder's ports; a frame's row fixes its other bytes, an operand word is its operands. -/
theorem encodeOfDecodeIsTheTransaction : Obligations.EncodeOfDecodeIsTheTransaction := by
  rintro ⟨port, bytes⟩ i h
  unfold decode at h
  split at h
  case h_11 => cases h
  all_goals
    rename_i hport hbytes
    obtain rfl : port = _ := hport
    obtain rfl : bytes = _ := hbytes
  case h_1 =>
    obtain ⟨⟨rfl, rfl, rfl, rfl⟩, hc⟩ := decodeCommand_eq_ok h
    exact (commandOf_eq_some hc).1
  case h_2 =>
    obtain ⟨rfl, hr⟩ := decodeInbound_eq_ok h
    exact (responseOf_eq_some hr).1
  case h_8 =>
    split at h <;> cases h
    next hm => exact encode_setmode_of_modeOf hm
  case h_9 =>
    split at h <;> cases h
    next hlt => exact congrArg (fun b => Txn.mk .clrstat [b]) (setWidth_setWidth_of_lt (n := 5) hlt)
  case h_10 =>
    split at h <;> cases h
    next hlt => exact congrArg (fun b => Txn.mk .rdstat [b]) (setWidth_setWidth_of_lt (n := 3) hlt)
  all_goals (cases h; rfl)

/-- Settles O3: the decoder is run on the thirteen words. -/
theorem tableWordsDecodeToTheirRows : Obligations.TableWordsDecodeToTheirRows := by
  unfold Obligations.TableWordsDecodeToTheirRows
  decide

/-- Settles O4: the decoder's answer turns on OPCODE's row alone, and the tables list just these opcodes. -/
theorem onlyListedOpcodesHaveNames : Obligations.OnlyListedOpcodesHaveNames := fun op dh dl f =>
  ⟨(decode_commandTxn_unlisted_iff op dh dl).trans (commandOf_eq_none_iff op dh dl),
    (decode_responseTxn_unlisted_iff op f).trans (responseOf_eq_none_iff op f)⟩

end Sys2Proof.Machine
end

section
/-! SUPPORT. The laws of the checksum of a frame UFE builds (40_checksum.md R80 to R82). Settles O6, O7, O8. -/

namespace Sys2Proof.Machine

/-- R135's checksum without the reduction: the six bytes under it add to at least `0x106` and to far less than 65536. -/
theorem commandChecksum_eq (op dh dl : Byte) :
    commandChecksum op dh dl = 65536 - (0x106 + op.toNat + dh.toNat + dl.toNat) := by
  rw [commandChecksum, Nat.mod_eq_of_lt (by omega)]

/-- The two bytes of a 16-bit number give the number back (R62). -/
theorem toNat_bytes_of_lt {n : Nat} (hn : n < 65536) :
    (BitVec.ofNat 8 (n / 256)).toNat * 256 + (BitVec.ofNat 8 (n % 256)).toNat = n := by
  rw [BitVec.toNat_ofNat, BitVec.toNat_ofNat]
  omega

/-- Settles O6: on a sum of six bytes both formulas are the 16-bit complement (R80), and a frame differs by nothing else. -/
theorem invertedEqualsStandard : Obligations.InvertedEqualsStandard := by
  refine ⟨fun b1 b2 b3 b4 b5 b6 => ?_, fun op dh dl => ?_⟩
  · have hsum : sumOf b1 b2 b3 b4 b5 b6 ≤ 0xFFFF := (sumOf_le b1 b2 b3 b4 b5 b6).trans (by decide)
    rw [checksumOf_eq_ofNat_sub (v := .inv) (by decide) hsum, checksumOf_eq_ofNat_sub (v := .std) (by decide) hsum]
  · rw [encodeFrame_of_checksum (checksumOf_command (v := .inv) (by decide) op dh dl),
      encodeFrame_of_checksum (checksumOf_command (v := .std) (by decide) op dh dl)]

/-- Settles O7: the frame in closed form carries 65536 less the sum of its six bytes (R82). -/
theorem frameSumsToZero : Obligations.FrameSumsToZero := by
  intro v op dh dl hv
  refine ⟨_, _, _, _, _, _, _, _, _, _, (encodeFrame_eq_wireFrame v op dh dl).trans (wireFrame_of_ne_none hv op dh dl), ?_⟩
  have hsum : VERSION.toNat + LENGTH.toNat + op.toNat + ACK_REQ.toNat + dh.toNat + dl.toNat =
      0x106 + op.toNat + dh.toNat + dl.toNat := sumOf_command op dh dl
  rw [hsum, toNat_bytes_of_lt (commandChecksum_lt op dh dl), commandChecksum_eq]
  omega

/-- Settles O8: the three free bytes move the complement of `0x106` by 0 to 765 (R81). -/
theorem frameChecksumRange : Obligations.FrameChecksumRange := by
  intro v op dh dl hv
  refine ⟨_, checksumOf_command hv op dh dl, ?_⟩
  rw [BitVec.toNat_ofNat, Nat.mod_eq_of_lt (commandChecksum_lt op dh dl), commandChecksum_eq]
  omega

end Sys2Proof.Machine
end

section
/-! SUPPORT. Frame Assembler (42_frame_assembler.md): bytes short of a frame, frames UFE builds, and the way back to CUR = 0 (R96,
R100, R112, R198). Settles O21, O24, O26, O27. -/

namespace Sys2Proof.Machine

/-- Where bytes are written behind values, there are values up to the last of them. -/
theorem Memory.Holds.writeFrom {m : Memory} {n : Nat} {vs : List Byte} (h : m.Holds n) :
    (Memory.writeFrom m n vs).Holds (n + vs.length) := fun k hk => by
  rw [Memory.read_writeFrom]
  split
  · rw [List.getElem?_eq_getElem (by omega)]
    rfl
  · exact h k (by omega)

/-- A frame whose first bytes have values and whose others are written has OPCODE, DATA_HIGH and DATA_LOW (R33 (c), R121). -/
theorem exists_data_of_writeFrom {m : Memory} {n : Nat} {vs : List Byte} {v : Variant} (hh : m.Holds n)
    (hlen : n + vs.length = frameSize v) : ∃ op dh dl, (m.writeFrom n vs).read 3 = some op ∧
      (m.writeFrom n vs).read 5 = some dh ∧ (m.writeFrom n vs).read 6 = some dl := by
  have h8 := (frameSize_bounds v).1
  have hfull : (m.writeFrom n vs).Holds (n + vs.length) := hh.writeFrom
  obtain ⟨op, h3⟩ := hfull.read (i := 3) (by omega)
  obtain ⟨dh, h5⟩ := hfull.read (i := 5) (by omega)
  obtain ⟨dl, h6⟩ := hfull.read (i := 6) (by omega)
  exact ⟨op, dh, dl, h3, h5, h6⟩

/-- The frame's first seven bytes are those of the command's row in the opcode table (R63, R83). -/
theorem encodeFrame_take_seven (v : Variant) (op dh dl : Byte) :
    (encodeFrame v op dh dl).take 7 = (commandTxn op dh dl).bytes := by
  rw [encodeFrame_eq_wireFrame]
  cases v <;> rfl

theorem encodeFrame_length (v : Variant) (op dh dl : Byte) : (encodeFrame v op dh dl).length = frameSize v := by
  rw [encodeFrame_eq_wireFrame]
  cases v <;> rfl

theorem encodeFrame_getElem?_of_lt {i : Nat} (hi : i < 7) (v : Variant) (op dh dl : Byte) :
    (encodeFrame v op dh dl)[i]? = (commandTxn op dh dl).bytes[i]? := by
  rw [← encodeFrame_take_seven v, List.getElem?_take_of_lt hi]

/-- In SYNC mode RXBYTE is the arrival of its byte (R38, R198; log 11). -/
theorem exec_rxbyte_sync {s : State} (hm : s.mode = .sync) (b : Byte) : exec (.rxbyte b) s = .next (holdByte b s) := by
  change execRxbyte b s = _
  rw [execRxbyte, hm]

/-- Settles O21: the byte passes the START test, and CUR is short of the last index (R100). -/
theorem storeAndAdvance_of_short : Obligations.StoreAndAdvance := by
  intro b s hm hs hlt
  have hb : s.cur.toNat < BUF_SIZE := by
    have := (frameSize_bounds s.params.variant).2
    omega
  refine ⟨storeAndAdvance b s, exec_rxbyte_async hm b ▸ assemble_store hs hb (by omega), rfl, cur_advance hb, ?_, ?_⟩
  · exact Memory.read_write_same _ _ _
  · exact fun a ha => Memory.read_write_other ha

/-- Settles O24: a frame UFE builds is FRAME_SIZE bytes that begin with START, and any such bytes complete (R109); DISPATCH reads
the operands back. -/
theorem encodedFrameRoundTrips : Obligations.EncodedFrameRoundTrips := by
  intro op dh dl s hm h0
  have hbyte := fun (i : Nat) (hi : i < 7) => encodeFrame_getElem?_of_lt hi s.params.variant op dh dl
  obtain ⟨t, op', dh', dl', hfeed, h3, h5, h6, hnew, -, ht⟩ := anyFrameCompletesWithoutStaleBytes
    (encodeFrame s.params.variant op dh dl) s hm h0 (encodeFrame_length _ op dh dl) (hbyte 0 (by decide))
  obtain rfl : op = op' := Option.some.inj ((hbyte 3 (by decide)).symm.trans h3)
  obtain rfl : dh = dh' := Option.some.inj ((hbyte 5 (by decide)).symm.trans h5)
  obtain rfl : dl = dl' := Option.some.inj ((hbyte 6 (by decide)).symm.trans h6)
  exact ⟨t, hfeed, hnew, ht⟩

/-- Settles O26: the bytes that are missing complete the frame; with the old ones below CUR, all that DISPATCH reads has a
value. -/
theorem awaitingStartIsReachable : Obligations.AwaitingStartIsReachable := by
  rintro bs s ⟨-, -, hc, hh, -⟩ hm hlen hs
  have hne : bs ≠ [] := List.ne_nil_of_length_pos (by omega)
  have hlen' : s.cur.toNat + bs.length = frameSize s.params.variant := (Nat.add_comm _ _).trans hlen
  obtain ⟨op, dh, dl, h3, h5, h6⟩ := exists_data_of_writeFrom hh hlen'
  exact ⟨_, feed_completes hm hne hlen' hs h3 h5 h6, rfl⟩

/-- Settles O27: the arrival of a byte writes the inbound stream only. -/
theorem byteWaitsInSyncMode : Obligations.ByteWaitsInSyncMode := by
  intro b s hm
  exact exec_rxbyte_sync hm b

end Sys2Proof.Machine
end

section
/-! SUPPORT. Response Interpreter (43_response_interpreter.md): a completed inbound frame in ASYNC mode and in SYNC mode, and
SRC_RULE as a table (R113 to R120, R127 to R129). Settles O28, O29, O30, O31, O32, O33. -/

namespace Sys2Proof.Machine

theorem interpret_async {s : State} (hm : s.mode = .async) (op dh dl : Byte) :
    interpret op dh dl s = dispatch op dh dl s := by
  rw [interpret, hm]

/-- SOURCE after SRC_RULE is its byte, or what it held (R120). -/
theorem statusBySource_eq (rule : SrcRule) (op dh dl : Byte) (st : Status) :
    statusBySource rule op dh dl st = { st with source := (srcRuleAt rule op dh dl).getD st.source } := by
  unfold statusBySource
  split
  · next h => rw [h]; rfl
  · next h => rw [h]; rfl

theorem statusByOpcode_source (op dl : Byte) (st : Status) : (statusByOpcode op dl st).source = st.source := by
  unfold statusByOpcode
  split_ifs <;> rfl

/-- An opcode without a status field sets none (R119). -/
theorem statusByOpcode_of_unknown {op : Byte} (h1 : op ≠ OP_DONE) (h2 : op ≠ OP_READY) (h3 : op ≠ OP_ERROR)
    (h4 : op ≠ OP_OK) (dl : Byte) (st : Status) : statusByOpcode op dl st = st := by
  rw [statusByOpcode, if_neg h1, if_neg h2, if_neg h3, if_neg h4]

/-- DISPATCH's two matches are independent: the opcode's field, and SOURCE by SRC_RULE (R114). -/
theorem dispatchStatus_eq (rule : SrcRule) (op dh dl : Byte) (st : Status) :
    dispatchStatus rule op dh dl st =
      { statusByOpcode op dl st with source := (srcRuleAt rule op dh dl).getD st.source } := by
  rw [dispatchStatus, statusBySource_eq, statusByOpcode_source]

/-- An arm that is the Response Interpreter's reading is, in ASYNC mode, DISPATCH: the opcode's field and SOURCE. -/
theorem exec_of_interpret_async {i : Instr} {op dh dl : Byte} {s : State}
    (hi : ∀ s, exec i s = .next (interpret op dh dl s)) (hm : s.mode = .async) :
    exec i s = .next { s with status := { statusByOpcode op dl s.status with source := sourceAfter s op dh dl } } := by
  rw [hi, interpret_async hm, dispatch, dispatchStatus_eq]
  rfl

theorem ignoredAs_of_interpret {i : Instr} {op : Byte} {f : RxFields}
    (hi : ∀ s, exec i s = .next (interpret op f.dh f.dl s)) (hop : ∀ st, statusByOpcode op f.dl st = st) :
    IgnoredAs i op f := fun s hm => by
  rw [exec_of_interpret_async hi hm, hop]

/-- The 16-bit data of a frame as a number (R40, R127). -/
theorem dataWord_eq_ofNat (dh dl : Byte) : dataWord dh dl = BitVec.ofNat 16 (dh.toNat * 256 + dl.toNat) := by
  have h256 : (256 : Word16).toNat = 256 := rfl
  apply BitVec.eq_of_toNat_eq
  simp only [dataWord, h256, BitVec.toNat_add, BitVec.toNat_mul, BitVec.toNat_setWidth, BitVec.toNat_ofNat]
  omega

/-- QUERY's end in closed form: the result is recorded, QACTIVE becomes 0, FG is between operations (R124, R127, R128). -/
theorem finishQuery_eq (op dh dl : Byte) (s : State) :
    finishQuery op dh dl s = { s with
      trace := s.trace ++ [.returned (queryResult s.qexp op dh dl)], qactive := false, fgAt := .idle } := by
  rw [finishQuery, dataWord_eq_ofNat]
  rfl

theorem answersAs_of_interpret {i : Instr} {op : Byte} {f : RxFields}
    (hi : ∀ s, exec i s = .next (interpret op f.dh f.dl s)) : AnswersAs i op f := fun s hm => by
  refine ⟨fun hq => ?_, fun hq => ?_⟩
  · rw [hi, ← finishQuery_eq, interpret, hm, hq]
    rfl
  · rw [hi, interpret, hm, hq]
    rfl

/-- A run of bytes that can be read is a byte and a run behind it. -/
theorem Memory.readFrom_succ_eq_some {m : Memory} {i n : Nat} {bytes : List Byte} (h : m.readFrom i (n + 1) = some bytes) :
    ∃ b rest, m.read i = some b ∧ m.readFrom (i + 1) n = some rest ∧ bytes = b :: rest := by
  unfold Memory.readFrom at h
  split at h <;> cases h
  exact ⟨_, _, ‹_›, ‹_›, rfl⟩

/-- Seven bytes read one after another, of which DISPATCH reads three. -/
theorem Memory.readFrom_seven {m : Memory} {bytes : List Byte} (h : m.readFrom 0 7 = some bytes) :
    ∃ b0 b1 b2 b3 b4 b5 b6, bytes = [b0, b1, b2, b3, b4, b5, b6] ∧
      m.read 3 = some b3 ∧ m.read 5 = some b5 ∧ m.read 6 = some b6 := by
  obtain ⟨b0, r0, -, t0, rfl⟩ := Memory.readFrom_succ_eq_some h
  obtain ⟨b1, r1, -, t1, rfl⟩ := Memory.readFrom_succ_eq_some t0
  obtain ⟨b2, r2, -, t2, rfl⟩ := Memory.readFrom_succ_eq_some t1
  obtain ⟨b3, r3, h3, t3, rfl⟩ := Memory.readFrom_succ_eq_some t2
  obtain ⟨b4, r4, -, t4, rfl⟩ := Memory.readFrom_succ_eq_some t3
  obtain ⟨b5, r5, h5, t5, rfl⟩ := Memory.readFrom_succ_eq_some t4
  obtain ⟨b6, r6, h6, t6, rfl⟩ := Memory.readFrom_succ_eq_some t5
  cases t6
  exact ⟨b0, b1, b2, b3, b4, b5, b6, rfl, h3, h5, h6⟩

/-- The row of SRC_RULE's table for a triple, where the function gives it a byte (R120, log 2). -/
def sourceRow (g : Byte → Byte → Byte → Option Byte) (p : Byte × Byte × Byte) : Option ((Byte × Byte × Byte) × Byte) :=
  (g p.1 p.2.1 p.2.2).map fun v => (p, v)

/-- The table of a list of triples agrees with the function on them, and has no byte for any other triple. -/
theorem srcRuleAt_filterMap (g : Byte → Byte → Byte → Option Byte) (ps : List (Byte × Byte × Byte)) (op dh dl : Byte) :
    srcRuleAt (ps.filterMap (sourceRow g)) op dh dl = if (op, dh, dl) ∈ ps then g op dh dl else none := by
  induction ps with
  | nil => rfl
  | cons p ps ih =>
    obtain ⟨o, h, l⟩ := p
    by_cases hp : (op, dh, dl) = (o, h, l)
    · cases hp
      cases hg : g op dh dl <;> simp [sourceRow, srcRuleAt, hg, ih]
    · have hne : ¬ (o = op ∧ h = dh ∧ l = dl) := fun ⟨h1, h2, h3⟩ => hp (by rw [h1, h2, h3])
      cases hg : g o h l <;> simp [sourceRow, srcRuleAt, hg, ih, hne, List.mem_cons, hp]

/-- Settles O28: DISPATCH's first match has one row for each status frame. -/
theorem statusFramesSetTheirField : Obligations.StatusFramesSetTheirField := fun f _ hm =>
  ⟨exec_of_interpret_async (i := .done f) (fun _ => rfl) hm, exec_of_interpret_async (i := .ready f) (fun _ => rfl) hm,
    exec_of_interpret_async (i := .error f) (fun _ => rfl) hm, exec_of_interpret_async (i := .okAck f) (fun _ => rfl) hm⟩

/-- Settles O29: no answer's opcode has a row in DISPATCH's first match. -/
theorem queryAnswersChangeNoFlagInAsyncMode : Obligations.QueryAnswersChangeNoFlagInAsyncMode := by
  intro f
  refine ⟨?_, ?_, ?_, ?_, ?_, ?_, ?_, ?_, ?_, ?_, ?_, ?_, ?_, ?_⟩
  all_goals exact ignoredAs_of_interpret (fun _ => rfl) fun _ => rfl

/-- Settles O30: each inbound row's arm is the Response Interpreter's reading, which in SYNC mode turns on QACTIVE alone. -/
theorem inboundFramesAnswerTheActiveQuery : Obligations.InboundFramesAnswerTheActiveQuery := by
  intro f
  refine ⟨?_, ?_, ?_, ?_, ?_, ?_, ?_, ?_, ?_, ?_, ?_, ?_, ?_, ?_, ?_, ?_, ?_, ?_⟩
  all_goals exact answersAs_of_interpret fun _ => rfl

/-- Settles O31: completion dispatches the frame (R101), and an opcode without a field leaves all but SOURCE. -/
theorem unknownOpcodesAreIgnored : Obligations.UnknownOpcodesAreIgnored := by
  intro b op dh dl s hm hl h3 h5 h6 n1 n2 n3 n4
  obtain ⟨t, hexec, ht, -, -⟩ :=
    (completionDispatchesAndResetsTheCursor b s hl).2 op dh dl hm h3 h5 h6
  rw [dispatchStatus_eq, statusByOpcode_of_unknown n1 n2 n3 n4] at ht
  refine ⟨t, hexec, ?_⟩
  rw [ht]
  exact ⟨rfl, rfl, rfl, rfl, rfl⟩

/-- Settles O32: DISPATCH on the stored bytes 3, 5 and 6 is the arm of the row that bytes 0 and 3 select. -/
theorem completionRunsTheDecodedFrame : Obligations.CompletionRunsTheDecodedFrame := by
  rintro b i bytes s s' hm hl hs' hread hd
  obtain ⟨b0, b1, b2, op, b4, dh, dl, rfl, h3, h5, h6⟩ := Memory.readFrom_seven hread
  obtain ⟨-, hrow⟩ := decodeInbound_eq_ok hd
  have hexec : exec i s' = withFrame dispatch s' := by
    rw [(responseOf_eq_some hrow).2, interpret_async (by rw [hs']; exact hm), withFrame_of_read h3 h5 h6]
  rw [exec_rxbyte_async hm, assemble_last hl, hexec, hs']
  rfl

/-- Settles O33: the table lists every triple that the function gives a byte. -/
theorem everySourceRuleIsATable : Obligations.EverySourceRuleIsATable := by
  intro g
  refine ⟨(Finset.univ : Finset (Byte × Byte × Byte)).toList.filterMap (sourceRow g), fun op dh dl => ?_⟩
  rw [srcRuleAt_filterMap, if_pos (Finset.mem_toList.mpr (Finset.mem_univ _))]

end Sys2Proof.Machine
end

section
/-! SUPPORT. FG's operations (R13, R48): which instructions are a SEND, what the first transition of an operation does, and FG's
runs of internal steps. -/

namespace Sys2Proof.Machine

/-- An instruction at the command port is a named command or query: its arm is the SEND of its row (R135). -/
theorem exec_of_command_port {i : Instr} (h : (encode i).port = .command) :
    ∃ op dh dl, encode i = commandTxn op dh dl ∧ ∀ s, exec i s = sendFrame op dh dl s := by
  have hd := decodeOfEncodeIsTheInstruction i
  unfold decode at hd
  split at hd
  case h_1 op _ dh dl _ _ => exact ⟨op, dh, dl, commandOf_eq_some (decodeCommand_eq_ok hd).2⟩
  case h_11 => cases hd
  all_goals
    next hport _ => rw [h] at hport; cases hport

/-- Every instruction that is a SEND runs as one, and starts as one (R87, R135). -/
theorem send_of_sendOpcode {i : Instr} {op : Byte} (h : sendOpcode i = some op) :
    ∃ dh dl, (∀ s, exec i s = sendFrame op dh dl s) ∧ ∀ s, startOperation i s = sendStart op dh dl s := by
  unfold sendOpcode at h
  split at h
  · next he =>
    obtain ⟨op', dh, dl, he', hexec⟩ := exec_of_command_port (congrArg Txn.port he)
    obtain rfl : op' = op := by
      rw [he', commandTxn] at he
      cases he
      exact Option.some.inj h
    exact ⟨dh, dl, hexec, fun s => by rw [startOperation, he', commandTxn]⟩
  · next dh dl he =>
    cases h
    have hd := decodeOfEncodeIsTheInstruction i
    rw [he] at hd
    cases hd
    exact ⟨dh, dl, fun _ => rfl, fun _ => rfl⟩
  · cases h

/-- What an operation of one transition leaves (R48): a result returned to FG, MODE, or the cleared status. -/
def CompletesAtOnce (i : Instr) (s t : State) : Prop :=
  (∃ r, t = s.record (.returned r)) ∨
  (∃ m, i = .setmode m ∧ s.txbusy = false ∧ s.qactive = false ∧ t = s.setMode m) ∨
  ∃ mask, i = .clrstat mask ∧ t = s.setStatus (clearStatus mask s.status)

theorem CompletesAtOnce.fgAt_eq {i : Instr} {s t : State} (h : CompletesAtOnce i s t) : t.fgAt = s.fgAt := by
  rcases h with ⟨r, rfl⟩ | ⟨m, -, -, -, rfl⟩ | ⟨mask, -, rfl⟩ <;> rfl

/-- SETMODE is refused or complete at once (R181). -/
theorem exec_setmode_once (m : Mode) (s : State) :
    (∃ r, exec (.setmode m) s = .refused r) ∨ ∃ t, exec (.setmode m) s = .next t ∧ CompletesAtOnce (.setmode m) s t := by
  cases h : exec (.setmode m) s with
  | next t => exact .inr ⟨t, rfl, .inr (.inl ⟨m, rfl, execSetmode_eq_next h⟩)⟩
  | fault f =>
    change execSetmode m s = _ at h
    unfold execSetmode at h
    split at h <;> cases h
  | refused r => exact .inl ⟨r, rfl⟩

/-- RDSTAT is refused or complete at once (R185). -/
theorem exec_rdstat_once (f : BitVec 3) (s : State) :
    (∃ r, exec (.rdstat f) s = .refused r) ∨ ∃ t, exec (.rdstat f) s = .next t ∧ CompletesAtOnce (.rdstat f) s t := by
  change (∃ r, execRdstat f s = .refused r) ∨ ∃ t, execRdstat f s = .next t ∧ _
  unfold execRdstat
  split
  · exact .inr ⟨_, rfl, .inl ⟨_, rfl⟩⟩
  · exact .inl ⟨_, rfl⟩

/-- FG's operations (R13, R204): a SEND, QUERY, or one that is refused or complete in its first transition. -/
theorem foreground_cases {i : Instr} (hf : isForeground i = true) :
    (∃ op dh dl, (∀ s, exec i s = sendFrame op dh dl s) ∧ ∀ s, startOperation i s = sendStart op dh dl s) ∨
    (∃ e, i = .query e) ∨
    ((∀ s, startOperation i s = exec i s) ∧
      ∀ s, (∃ r, exec i s = .refused r) ∨ ∃ t, exec i s = .next t ∧ CompletesAtOnce i s t) := by
  rcases exec_shape i with ⟨op, -, -, hop, -⟩ | ⟨-, -, -, hport, -⟩ | ⟨b1, b2, b3, b4, b5, b6, rfl⟩ | ⟨op, dh, dl, rfl⟩ |
    ⟨b, rfl⟩ | ⟨e, rfl⟩ | ⟨m, rfl⟩ | ⟨mask, rfl⟩ | ⟨f, rfl⟩
  · obtain ⟨dh, dl, hsend⟩ := send_of_sendOpcode hop
    exact .inl ⟨op, dh, dl, hsend⟩
  · rw [isForeground, hport] at hf
    cases hf
  · exact .inr (.inr ⟨fun _ => rfl, fun _ => .inr ⟨_, rfl, .inl ⟨_, rfl⟩⟩⟩)
  · exact .inr (.inr ⟨fun _ => rfl, fun _ => .inr ⟨_, rfl, .inl ⟨_, rfl⟩⟩⟩)
  · cases hf
  · exact .inr (.inl ⟨e, rfl⟩)
  · exact .inr (.inr ⟨fun _ => by cases m <;> rfl, exec_setmode_once m⟩)
  · exact .inr (.inr ⟨fun _ => rfl, fun _ => .inr ⟨_, rfl, .inr (.inr ⟨mask, rfl, rfl⟩)⟩⟩)
  · exact .inr (.inr ⟨fun _ => rfl, exec_rdstat_once f⟩)

/-- Everything the first transition of an operation of FG can do (R48). -/
theorem startOperation_eq_next {i : Instr} {s t : State} (hf : isForeground i = true)
    (h : startOperation i s = .next t) :
    (∃ op dh dl, s.txbusy = false ∧ s.fgAt = .idle ∧ t = sendBegin op dh dl s) ∨
    (∃ e, s.mode = .sync ∧ s.fgAt = .idle ∧ t = queryBegin e s) ∨ CompletesAtOnce i s t := by
  rcases foreground_cases hf with ⟨op, dh, dl, -, hstart⟩ | ⟨e, rfl⟩ | ⟨hstart, honce⟩
  · exact .inl ⟨op, dh, dl, sendStart_eq_next ((hstart s).symm.trans h)⟩
  · exact .inr (.inl ⟨e, queryStart_eq_next h⟩)
  · rw [hstart] at h
    rcases honce s with ⟨r, hr⟩ | ⟨u, hu, hdone⟩
    · rw [hr] at h; cases h
    · rw [hu] at h; cases h; exact .inr (.inr hdone)

/-! Runs of internal steps. -/

theorem fgStep_of_idle {s : State} (h : s.fgAt = .idle) : fgStep s = .next s := by
  rw [fgStep, h]

theorem fgContinue_idle {s : State} (h : s.fgAt = .idle) : fgContinue s = .next s := fgRun_idle h _

/-- A run that has reached a point where FG stays is as long as one likes. -/
theorem fgRun_of_le {a n : Nat} {s t : State} (h : fgRun a s = .next t) (ht : fgStep t = .next t) (hle : a ≤ n) :
    fgRun n s = .next t := by
  obtain ⟨b, rfl⟩ := Nat.exists_eq_add_of_le hle
  rw [fgRun_add, h, andThen_next, fgRun_fixed ht]

/-- FG goes on as far as a run of internal steps that ends where FG stays. -/
theorem fgContinue_of_fgRun {a : Nat} {s t : State} (h : fgRun a s = .next t) (ht : fgStep t = .next t)
    (ha : a ≤ 2 * BUF_SIZE + 4 + s.env.inbound.length) : fgContinue s = .next t :=
  fgRun_of_le h ht ha

/-- An operation of FG, issued between operations, is its first transition and what FG goes on to do (log 8). -/
theorem exec_eq_startOperation {i : Instr} {s : State} (hf : isForeground i = true) (hi : s.fgAt = .idle) :
    exec i s = andThen (startOperation i s) fgContinue := by
  rcases foreground_cases hf with ⟨op, dh, dl, hexec, hstart⟩ | ⟨e, rfl⟩ | ⟨hstart, honce⟩
  · rw [hexec, hstart, sendFrame]
  · rfl
  · rw [hstart]
    rcases honce s with ⟨r, hr⟩ | ⟨t, ht, hdone⟩
    · rw [hr, andThen_refused]
    · rw [ht, andThen_next, fgContinue_idle (hdone.fgAt_eq.trans hi)]

/-- An operation of FG that answers a next state has taken its first transition and gone on from there. -/
theorem exec_eq_next {i : Instr} {s t : State} (h : exec i s = .next t) (hf : isForeground i = true) (hi : s.fgAt = .idle) :
    ∃ u n, startOperation i s = .next u ∧ fgRun n u = .next t := by
  rw [exec_eq_startOperation hf hi] at h
  obtain ⟨u, hu, hrun⟩ := andThen_eq_next.mp h
  exact ⟨u, _, hu, hrun⟩

/-- Between operations FG's whole turn is its internal turn and what FG goes on to do (log 8). -/
theorem fgTurn_of_idle {s : State} (hs : s.fgAt = .idle) :
    fgTurn s = andThen (issueWith startOperation s) fgContinue := by
  rw [fgTurn, if_pos hs]
  unfold issueWith
  split
  · rw [andThen_next, fgContinue_idle hs]
  · split
    · split
      · next hf => exact exec_eq_startOperation hf hs
      · rfl
    · rfl

theorem fgInternalTurn_of_idle {s : State} (hs : s.fgAt = .idle) : fgInternalTurn s = issueWith startOperation s :=
  if_pos hs

theorem fgTurn_of_busy {s : State} (h : s.fgAt ≠ .idle) : fgTurn s = fgContinue s := if_neg h

theorem fgInternalTurn_of_busy {s : State} (h : s.fgAt ≠ .idle) : fgInternalTurn s = fgStep s := if_neg h

theorem fgAt_ne_idle_of_blocked {s : State} (h : FgBlocked s) : s.fgAt ≠ .idle := by
  rcases h with ⟨⟨i, h⟩, -⟩ | ⟨h, -⟩ | ⟨⟨n, h⟩, -⟩ <;> simp [h]

/-- FG's turns leave a blocked FG where it is (R194, log 19). -/
theorem takeTurn_of_blocked {s : State} (h : FgBlocked s) :
    takeTurn .fg s = .next s ∧ takeTurn .fgInternal s = .next s := by
  have hb := fgAt_ne_idle_of_blocked h
  have hstay := fgStep_of_blocked h
  exact ⟨(fgTurn_of_busy hb).trans (fgRun_fixed hstay _), (fgInternalTurn_of_busy hb).trans hstay⟩

/-! FG's internal turns one by one. -/

theorem takeTurns_append (xs ys : List Turn) (s : State) :
    takeTurns (xs ++ ys) s = andThen (takeTurns xs s) (takeTurns ys) := by
  induction xs generalizing s with
  | nil => rfl
  | cons x xs ih =>
    rw [List.cons_append, takeTurns, takeTurns]
    cases takeTurn x s with
    | next t => exact ih t
    | fault f => rfl
    | refused r => rfl

theorem takeTurns_fgInternal_succ {s : State} (h : s.fgAt ≠ .idle) (n : Nat) :
    takeTurns (List.replicate (n + 1) .fgInternal) s =
      andThen (fgStep s) (takeTurns (List.replicate n .fgInternal)) := by
  rw [List.replicate_succ, takeTurns, takeTurn, fgInternalTurn_of_busy h]

/-- As long as the operation is not complete, internal turns are internal steps. -/
theorem takeTurns_fgInternal_of_fgRun {n : Nat} {s t : State} (h : fgRun n s = .next t) (ht : t.fgAt ≠ .idle) :
    takeTurns (List.replicate n .fgInternal) s = .next t := by
  induction n generalizing s with
  | zero => exact h
  | succ n ih =>
    have hs : s.fgAt ≠ .idle := fun hs => by
      rw [fgRun_idle hs] at h
      cases h
      exact ht hs
    rw [takeTurns_fgInternal_succ hs]
    obtain ⟨u, hu, hrun⟩ := andThen_eq_next.mp h
    rw [hu, andThen_next, ih hrun]

/-- A run inside an operation is as many internal turns as it takes to complete the operation, or as it has steps. -/
theorem exists_takeTurns_eq_fgRun {n : Nat} {s : State} (hs : s.fgAt ≠ .idle) :
    ∃ k, takeTurns (List.replicate k .fgInternal) s = fgRun n s ∧ (0 < n → 0 < k) := by
  induction n generalizing s with
  | zero => exact ⟨0, rfl, id⟩
  | succ n ih =>
    cases hstep : fgStep s with
    | next t =>
      by_cases ht : t.fgAt = .idle
      · refine ⟨1, ?_, fun _ => Nat.one_pos⟩
        rw [takeTurns_fgInternal_succ hs, fgRun_succ, hstep, andThen_next, andThen_next, fgRun_idle ht]
        rfl
      · obtain ⟨k, hk, -⟩ := ih ht
        exact ⟨k + 1, by rw [takeTurns_fgInternal_succ hs, fgRun_succ, hstep, andThen_next, andThen_next, hk],
          fun _ => Nat.succ_pos k⟩
    | fault f => exact ⟨1, by rw [takeTurns_fgInternal_succ hs, fgRun_succ, hstep]; rfl, fun _ => Nat.one_pos⟩
    | refused r => exact ⟨1, by rw [takeTurns_fgInternal_succ hs, fgRun_succ, hstep]; rfl, fun _ => Nat.one_pos⟩

/-- FG's whole turn is some number of its internal turns: between operations the first of them issues the next operation
(log 8). -/
theorem exists_takeTurns_eq_fgTurn (s : State) :
    ∃ n, 0 < n ∧ takeTurns (List.replicate n .fgInternal) s = takeTurn .fg s := by
  by_cases hs : s.fgAt = .idle
  · have hturn : ∀ n, takeTurns (List.replicate (n + 1) .fgInternal) s =
        andThen (issueWith startOperation s) (takeTurns (List.replicate n .fgInternal)) := fun n => by
      rw [List.replicate_succ, takeTurns, takeTurn, fgInternalTurn_of_idle hs]
    have hfg : takeTurn .fg s = andThen (issueWith startOperation s) fgContinue := fgTurn_of_idle hs
    rw [hfg]
    cases hstart : issueWith startOperation s with
    | next t =>
      by_cases ht : t.fgAt = .idle
      · exact ⟨1, Nat.one_pos, by rw [hturn, hstart, andThen_next, andThen_next, fgContinue_idle ht]; rfl⟩
      · obtain ⟨k, hk, -⟩ := exists_takeTurns_eq_fgRun (n := 2 * BUF_SIZE + 4 + t.env.inbound.length) ht
        exact ⟨k + 1, Nat.succ_pos k, by rw [hturn, hstart, andThen_next, andThen_next, hk, fgContinue]⟩
    | fault f => exact ⟨1, Nat.one_pos, by rw [hturn, hstart]; rfl⟩
    | refused r => exact ⟨1, Nat.one_pos, by rw [hturn, hstart]; rfl⟩
  · obtain ⟨k, hk, hpos⟩ := exists_takeTurns_eq_fgRun (n := 2 * BUF_SIZE + 4 + s.env.inbound.length) hs
    exact ⟨k, hpos (by omega), by rw [hk, takeTurn, fgTurn_of_busy hs, fgContinue]⟩

end Sys2Proof.Machine
end

section
/-! SUPPORT. SEND (41_frame_encoder.md R87 to R94) and the names that are one (R135, R163 to R176): the points it passes, where it
blocks, and what it leaves. Settles O10, O11, O12, O13, O14, O15, O16, O18, O59. -/

namespace Sys2Proof.Machine

theorem wireFrame_length_eq_frameSize (v : Variant) (op dh dl : Byte) : (wireFrame v op dh dl).length = frameSize v := by
  rw [← encodeFrame_eq_wireFrame, encodeFrame_length]

/-- Where `send` is next: TXBUSY = 1, the frame in TXB, nothing sent (R88, R89). -/
def sendFilled (op dh dl : Byte) (s : State) : State :=
  { s with txbusy := true, fgAt := .sendCall 0, txb := s.txb.writeFrom 0 (wireFrame s.params.variant op dh dl) }

/-- Where the sink has taken the whole frame (R89, R90). -/
def sendTransmitted (op dh dl : Byte) (s : State) : State :=
  { sendFilled op dh dl s with
    fgAt := if s.params.variant = .slow then .delayCall else .sendDone
    trace := s.trace ++ frameEvents s.params.variant op dh dl }

/-- Under SLOW, where DLY has been asked (R90). -/
def sendDelaying (op dh dl : Byte) (s : State) : State :=
  { sendFilled op dh dl s with
    fgAt := .delayWait
    trace := s.trace ++ frameEvents s.params.variant op dh dl ++ [.delay Config.settleMs] }

/-- Where only completion is left (R91). -/
def sendSettled (op dh dl : Byte) (s : State) : State :=
  { sendFilled op dh dl s with
    fgAt := .sendDone
    trace := s.trace ++ sendEvents s.params.variant op dh dl }

/-- Lines 2 and 3 of SEND: the frame, then one step for each byte written to TXB (R87, R88). -/
theorem fgRun_sendBegin (op dh dl : Byte) (s : State) :
    fgRun (1 + frameSize s.params.variant) (sendBegin op dh dl s) = .next (sendFilled op dh dl s) := by
  have hencode : fgRun 1 (sendBegin op dh dl s) = .next (encodeStep op dh dl (sendBegin op dh dl s)) := rfl
  have hfill := fgRun_fill (s := encodeStep op dh dl (sendBegin op dh dl s)) (i := 0)
    (bs := encodeFrame s.params.variant op dh dl) rfl
    (by rw [encodeFrame_length, Nat.zero_add]; exact (frameSize_bounds _).2)
  rw [encodeFrame_length, encodeFrame_eq_wireFrame] at hfill
  rw [fgRun_add, hencode, andThen_next, hfill]
  rfl

/-- Line 4 of SEND with a ready sink: one step for each byte transmitted (R89). -/
theorem fgRun_sendFilled (op dh dl : Byte) {s : State} (hsink : s.env.sinkReady = true) :
    fgRun (frameSize s.params.variant) (sendFilled op dh dl s) = .next (sendTransmitted op dh dl s) := by
  have h8 := (frameSize_bounds s.params.variant).1
  have hstart : (sendFilled op dh dl s).fgAt = sendPoint s.params.variant 0 := by
    rw [sendPoint, if_pos (by omega)]
    rfl
  have hend : sendPoint s.params.variant (frameSize s.params.variant) =
      if s.params.variant = .slow then .delayCall else .sendDone := if_neg (Nat.lt_irrefl _)
  have hsend := fgRun_send (s := sendFilled op dh dl s) (bs := wireFrame s.params.variant op dh dl) hsink hstart
    (by rw [wireFrame_length_eq_frameSize, Nat.zero_add]; rfl)
    fun k hk => by
      rw [Nat.zero_add, sendFilled, Memory.read_writeFrom, if_pos (by omega), Nat.sub_zero]
  rw [wireFrame_length_eq_frameSize] at hsend
  rw [hsend]
  exact congrArg (fun p => Host.Outcome.next { sendTransmitted op dh dl s with fgAt := p }) hend

/-- SEND up to its settle delay, with a ready sink (R87 to R89). -/
theorem fgRun_send_whole (op dh dl : Byte) {s : State} (hsink : s.env.sinkReady = true) :
    fgRun (1 + frameSize s.params.variant + frameSize s.params.variant) (sendBegin op dh dl s) =
      .next (sendTransmitted op dh dl s) := by
  rw [fgRun_add, fgRun_sendBegin, andThen_next, fgRun_sendFilled op dh dl hsink]

/-- Line 5 of SEND, the request (R90). -/
theorem fgStep_sendTransmitted_slow (op dh dl : Byte) {s : State} (hslow : s.params.variant = .slow) :
    fgStep (sendTransmitted op dh dl s) = .next (sendDelaying op dh dl s) := by
  rw [sendTransmitted, if_pos hslow]
  rfl

/-- Line 5 of SEND, the answer of DLY (R90). -/
theorem fgStep_sendDelaying (op dh dl : Byte) {s : State} (hslow : s.params.variant = .slow)
    (hdelay : s.env.delayReady = true) : fgStep (sendDelaying op dh dl s) = .next (sendSettled op dh dl s) := by
  have hstep : fgStep (sendDelaying op dh dl s) =
      if s.env.delayReady then .next ((sendDelaying op dh dl s).setFgAt .sendDone) else .next (sendDelaying op dh dl s) := rfl
  have htrace : sendEvents s.params.variant op dh dl =
      frameEvents s.params.variant op dh dl ++ [.delay Config.settleMs] := by rw [hslow]; rfl
  rw [hstep, if_pos hdelay, sendSettled, htrace, ← List.append_assoc]
  rfl

/-- The internal steps of SEND between its first and its last: two for the settle delay under SLOW (R48, log 7). -/
theorem fgRun_to_sendSettled (op dh dl : Byte) {s : State} (hr : SendReady s) :
    fgRun (1 + frameSize s.params.variant + frameSize s.params.variant + if s.params.variant = .slow then 2 else 0)
      (sendBegin op dh dl s) = .next (sendSettled op dh dl s) := by
  obtain ⟨-, -, hsink, hdelay⟩ := hr
  rw [fgRun_add, fgRun_send_whole op dh dl hsink, andThen_next]
  by_cases hslow : s.params.variant = .slow
  · rw [if_pos hslow, fgRun_succ, fgStep_sendTransmitted_slow op dh dl hslow, andThen_next, fgRun_succ,
      fgStep_sendDelaying op dh dl hslow (hdelay hslow)]
    rfl
  · have htrace : sendEvents s.params.variant op dh dl = frameEvents s.params.variant op dh dl := by
      cases hv : s.params.variant with
      | slow => exact absurd hv hslow
      | std | inv | none => rfl
    rw [if_neg hslow, sendTransmitted, if_neg hslow, sendSettled, htrace]
    rfl

/-- Line 6 of SEND (R91): TXBUSY is 0 again and FG between operations, as before the SEND. -/
theorem fgStep_sendSettled (op dh dl : Byte) {s : State} (hr : SendReady s) :
    fgStep (sendSettled op dh dl s) = .next (afterSend op dh dl s) := by
  obtain ⟨hbusy, hidle, -, -⟩ := hr
  have hstep : fgStep (sendSettled op dh dl s) =
      .next { afterSend op dh dl s with txbusy := false, fgAt := .idle } := rfl
  rw [hstep, ← hbusy, ← hidle]
  rfl

theorem sendStart_of_idle (op dh dl : Byte) {s : State} (hbusy : s.txbusy = false) (hidle : s.fgAt = .idle) :
    sendStart op dh dl s = .next (sendBegin op dh dl s) := by
  rw [sendStart, hbusy, if_neg Bool.false_ne_true, if_pos hidle]

theorem sendFrame_of_idle (op dh dl : Byte) {s : State} (hbusy : s.txbusy = false) (hidle : s.fgAt = .idle) :
    sendFrame op dh dl s = fgContinue (sendBegin op dh dl s) := by
  rw [sendFrame, sendStart_of_idle op dh dl hbusy hidle, andThen_next]

/-- Where the primitives answer, SEND completes in one run (R87 to R91). -/
theorem sendFrame_completes (op dh dl : Byte) {s : State} (hr : SendReady s) :
    sendFrame op dh dl s = .next (afterSend op dh dl s) := by
  have hrun : fgRun (1 + frameSize s.params.variant + frameSize s.params.variant +
      (if s.params.variant = .slow then 2 else 0) + 1) (sendBegin op dh dl s) = .next (afterSend op dh dl s) := by
    rw [fgRun_add, fgRun_to_sendSettled op dh dl hr, andThen_next, fgRun_succ, fgStep_sendSettled op dh dl hr]
    rfl
  obtain ⟨hbusy, hidle, -, -⟩ := hr
  have hstay : fgStep (afterSend op dh dl s) = .next (afterSend op dh dl s) := fgStep_of_idle hidle
  rw [sendFrame_of_idle op dh dl hbusy hidle]
  refine fgContinue_of_fgRun hrun hstay ?_
  have h10 := (frameSize_bounds s.params.variant).2
  simp only [BUF_SIZE] at h10 ⊢
  split <;> omega

/-- An arm that is a SEND is the SEND of its opcode, and completes where that does (R135). -/
theorem sendsAs_of_sendFrame {i : Instr} {k dh dl : Byte} (hi : ∀ s, exec i s = sendFrame k dh dl s) :
    SendsAs i k dh dl := fun s => ⟨hi s, fun hr => (hi s).trans (sendFrame_completes k dh dl hr)⟩

/-- A completed SEND sends the frame, and asks for nothing else but the delay under SLOW (R89, R90). -/
theorem sendEvents_eq (v : Variant) (k dh dl : Byte) :
    sendEvents v k dh dl = (wireFrame v k dh dl).map .sent ++ if v = .slow then [.delay Config.settleMs] else [] := by
  cases v with
  | slow => rfl
  | std | inv | none => exact (List.append_nil _).symm

/-- Settles O10: SEND's arm is the run through its points. -/
theorem sendCompletes : Obligations.SendCompletes := fun op dh dl _ hr => sendFrame_completes op dh dl hr

/-- Settles O11: each command's arm is the SEND of its opcode. -/
theorem commandsAreSends : Obligations.CommandsAreSends := by
  intro dh dl
  refine ⟨?_, ?_, ?_, ?_, ?_, ?_, ?_, ?_, ?_, ?_, ?_, ?_, ?_, ?_, ?_, ?_, ?_, ?_, ?_, ?_, ?_, ?_, ?_, ?_, ?_, ?_⟩
  all_goals exact sendsAs_of_sendFrame fun _ => rfl

/-- Settles O12: each outbound query's arm is the SEND of its opcode. -/
theorem queriesAreSends : Obligations.QueriesAreSends := by
  intro dh dl
  refine ⟨?_, ?_, ?_, ?_, ?_, ?_, ?_, ?_, ?_, ?_, ?_, ?_, ?_, ?_⟩
  all_goals exact sendsAs_of_sendFrame fun _ => rfl

/-- Settles O13: the frame and the row have the same fixed bytes before the operands, and only the frame is sent. -/
theorem sentFrameBeginsWithTheTableRow : Obligations.SentFrameBeginsWithTheTableRow := by
  intro i s hport hr
  obtain ⟨op, dh, dl, henc, hexec⟩ := exec_of_command_port hport
  refine ⟨afterSend op dh dl s, wireFrame s.params.variant op dh dl,
    if s.params.variant = .slow then [.delay Config.settleMs] else [],
    (hexec s).trans (sendFrame_completes op dh dl hr), ?_, ?_, ?_, wireFrame_length_eq_frameSize _ op dh dl⟩
  · rw [afterSend, sendEvents_eq, List.append_assoc]
  · intro b
    split <;> simp
  · rw [henc, ← encodeFrame_eq_wireFrame, encodeFrame_take_seven]

/-- Settles O14: the frame is one run of FRAME_SIZE bytes from index 0 of TXB. -/
theorem sendFillsTxbOnly : Obligations.SendFillsTxbOnly := by
  intro op dh dl s hr
  have hlen := wireFrame_length_eq_frameSize s.params.variant op dh dl
  refine ⟨afterSend op dh dl s, sendFrame_completes op dh dl hr, fun a ha => ?_, fun a ha => ?_, fun _ => rfl⟩
  · rw [afterSend, Memory.read_writeFrom, if_pos (by omega), Nat.sub_zero]
  · rw [afterSend, Memory.read_writeFrom, if_neg (by omega)]

/-- Settles O15: every SEND tests TXBUSY first. -/
theorem sendWhileBusyIsRefused : Obligations.SendWhileBusyIsRefused := by
  intro i op s hop hbusy
  obtain ⟨dh, dl, hexec, -⟩ := send_of_sendOpcode hop
  rw [hexec, sendFrame, sendStart, if_pos hbusy, andThen_refused]

/-- Settles O16: the run to `send` and the run to `delay` end where FG is blocked. -/
theorem sendStaysStuckWithoutAnswer : Obligations.SendStaysStuckWithoutAnswer := by
  intro op dh dl s hbusy hidle
  have h10 := (frameSize_bounds s.params.variant).2
  simp only [BUF_SIZE] at h10
  refine ⟨fun hsink => ?_, fun hsink hdelay hslow => ?_⟩
  · have hblocked : FgBlocked (sendFilled op dh dl s) := .inl ⟨⟨0, rfl⟩, hsink⟩
    refine ⟨sendFilled op dh dl s, (sendFrame_of_idle op dh dl hbusy hidle).trans ?_, rfl, takeTurn_of_blocked hblocked⟩
    exact fgContinue_of_fgRun (fgRun_sendBegin op dh dl s) (fgStep_of_blocked hblocked)
      (by simp only [BUF_SIZE]; omega)
  · have hblocked : FgBlocked (sendDelaying op dh dl s) := .inr (.inl ⟨rfl, hdelay⟩)
    have hrun : fgRun (1 + frameSize s.params.variant + frameSize s.params.variant + 1) (sendBegin op dh dl s) =
        .next (sendDelaying op dh dl s) := by
      rw [fgRun_add, fgRun_send_whole op dh dl hsink, andThen_next, fgRun_succ,
        fgStep_sendTransmitted_slow op dh dl hslow]
      rfl
    refine ⟨sendDelaying op dh dl s, (sendFrame_of_idle op dh dl hbusy hidle).trans ?_, rfl, takeTurn_of_blocked hblocked⟩
    exact fgContinue_of_fgRun hrun (fgStep_of_blocked hblocked) (by simp only [BUF_SIZE]; omega)

/-- Settles O18: the first internal turn issues the SEND, the last one completes it, and none between them finds FG between
operations. -/
theorem sendIsItsInternalSteps : Obligations.SendIsItsInternalSteps := by
  refine ⟨fun op dh dl rest s hr hops => ?_, exists_takeTurns_eq_fgTurn⟩
  obtain ⟨hbusy, hidle, -, -⟩ := id hr
  have hbetween := takeTurns_fgInternal_of_fgRun
    (fgRun_to_sendSettled op dh dl (s := s.setEnv { s.env with ops := rest }) hr) FgPoint.noConfusion
  have hissue : ∀ run : Instr → State → Answer,
      issueWith run s = run (.send op dh dl) (s.setEnv { s.env with ops := rest }) := fun run => by
    rw [issueWith, hops]
    rfl
  have hfirst : takeTurn .fgInternal s = .next (sendBegin op dh dl (s.setEnv { s.env with ops := rest })) := by
    rw [takeTurn, fgInternalTurn_of_idle hidle, hissue]
    exact sendStart_of_idle op dh dl hbusy hidle
  have hlast : takeTurn .fgInternal (sendSettled op dh dl (s.setEnv { s.env with ops := rest })) =
      .next (afterSend op dh dl (s.setEnv { s.env with ops := rest })) :=
    fgStep_sendSettled op dh dl (s := s.setEnv { s.env with ops := rest }) hr
  have hwhole : takeTurn .fg s = .next (afterSend op dh dl (s.setEnv { s.env with ops := rest })) := by
    rw [takeTurn, fgTurn, if_pos hidle, hissue]
    exact sendFrame_completes op dh dl (s := s.setEnv { s.env with ops := rest }) hr
  have hcount : 2 * frameSize s.params.variant + (if s.params.variant = .slow then 5 else 3) =
      1 + (1 + frameSize s.params.variant + frameSize s.params.variant +
        if s.params.variant = .slow then 2 else 0) + 1 := by
    split <;> omega
  rw [State.setEnv_params] at hbetween
  rw [hcount, List.replicate_add, List.replicate_add, takeTurns_append, takeTurns_append, hwhole]
  simp only [List.replicate_one, takeTurns, hfirst, andThen_next, hbetween, hlast]

/-- Settles O59: a SEND and a QUERY start between operations only; TXBUSY and MODE are tested before (log 14). -/
theorem operationsDoNotOverlap : Obligations.OperationsDoNotOverlap := by
  intro s hbusy
  refine ⟨fun i op hop htx => ?_, fun e hm => ?_⟩
  · obtain ⟨dh, dl, hexec, -⟩ := send_of_sendOpcode hop
    rw [hexec, sendFrame, sendStart, htx, if_neg Bool.false_ne_true, if_neg hbusy, andThen_refused]
  · change queryFor e s = _
    rw [queryFor, queryStart, if_neg (by rw [hm]; decide), if_neg hbusy, andThen_refused]

end Sys2Proof.Machine
end

section
/-! SUPPORT. SEND and reception have no state in common (R44, R94, R226; the spec's decision D4): what each of them writes, and
that neither reads what the other writes. Settles O17, O19. -/

namespace Sys2Proof.Machine

/-- `s` with the receive state of `r`: RXB, CUR, the Decoded Status, MODE and QUERY's two registers. -/
def State.withReceiveOf (s r : State) : State :=
  { s with rxb := r.rxb, cur := r.cur, status := r.status, mode := r.mode, qactive := r.qactive, qexp := r.qexp }

/-- `s` with the send state of `r`: TXB, TXBUSY, FG's point and the record. -/
def State.withSendOf (s r : State) : State :=
  { s with txb := r.txb, txbusy := r.txbusy, fgAt := r.fgAt, trace := r.trace }

/-- FG is not inside a QUERY. -/
def OutsideQuery (s : State) : Prop := ∀ n, s.fgAt ≠ .recv n

theorem fillPoint_ne_recv (i : Nat) (bs : List Byte) (n : Nat) : fillPoint i bs ≠ .recv n := by
  cases bs <;> exact FgPoint.noConfusion

theorem sendPoint_ne_recv (v : Variant) (i n : Nat) : sendPoint v i ≠ .recv n := by
  unfold sendPoint
  split_ifs <;> exact FgPoint.noConfusion

/-- Outside a QUERY an internal step of FG writes send state only, and FG stays outside (R87, R94). -/
theorem fgStep_writes_send {s t : State} (ho : OutsideQuery s) (h : fgStep s = .next t) :
    t = s.withSendOf t ∧ OutsideQuery t := by
  rcases fgStep_cases h with ⟨-, rfl⟩ | ⟨op, dh, dl, -, rfl⟩ | ⟨i, b, rest, -, -, rfl⟩ | ⟨i, -, -, rfl⟩ |
    ⟨i, b, -, -, -, rfl⟩ | ⟨-, rfl⟩ | ⟨-, -, rfl⟩ | ⟨-, -, rfl⟩ | ⟨-, rfl⟩ | ⟨n, hp, -⟩
  · exact ⟨rfl, ho⟩
  · exact ⟨rfl, fillPoint_ne_recv _ _⟩
  · exact ⟨rfl, fillPoint_ne_recv _ _⟩
  · exact ⟨rfl, ho⟩
  · exact ⟨rfl, sendPoint_ne_recv _ _⟩
  · exact ⟨rfl, fun _ => FgPoint.noConfusion⟩
  · exact ⟨rfl, ho⟩
  · exact ⟨rfl, fun _ => FgPoint.noConfusion⟩
  · exact ⟨rfl, fun _ => FgPoint.noConfusion⟩
  · exact absurd hp (ho n)

/-- So does its run. -/
theorem fgRun_writes_send {n : Nat} {s t : State} (ho : OutsideQuery s) (h : fgRun n s = .next t) :
    t = s.withSendOf t ∧ OutsideQuery t :=
  fgRun_keeps (P := fun u => u = s.withSendOf u ∧ OutsideQuery u)
    (fun u v ⟨hu, hou⟩ huv => by
      obtain ⟨hv, hov⟩ := fgStep_writes_send hou huv
      exact ⟨hv.trans (congrArg (State.withSendOf · v) hu :), hov⟩)
    ⟨rfl, ho⟩ h

/-- Outside a QUERY an internal step of FG reads no receive state (R94). -/
theorem fgStep_withReceiveOf {s : State} (ho : OutsideQuery s) (r : State) :
    fgStep (s.withReceiveOf r) = andThen (fgStep s) fun t => .next (t.withReceiveOf r) := by
  have hp : (s.withReceiveOf r).fgAt = s.fgAt := rfl
  unfold fgStep
  rw [hp]
  split
  case h_3 => unfold fillStep; split <;> rfl
  case h_4 i _ =>
    have hsink : (s.withReceiveOf r).env.sinkReady = s.env.sinkReady := rfl
    have htxb : (s.withReceiveOf r).txb.read i = s.txb.read i := rfl
    unfold sendCallStep
    rw [hsink, htxb]
    split
    · cases s.txb.read i <;> rfl
    · rfl
  case h_6 =>
    have hdelay : (s.withReceiveOf r).env.delayReady = s.env.delayReady := rfl
    rw [hdelay]
    split <;> rfl
  case h_8 n hn => exact absurd hn (ho n)
  all_goals rfl

theorem fgRun_withReceiveOf (n : Nat) {s : State} (ho : OutsideQuery s) (r : State) :
    fgRun n (s.withReceiveOf r) = andThen (fgRun n s) fun t => .next (t.withReceiveOf r) := by
  induction n generalizing s with
  | zero => rfl
  | succ n ih =>
    rw [fgRun_succ, fgRun_succ, fgStep_withReceiveOf ho]
    cases hstep : fgStep s with
    | next t => exact ih (fgStep_writes_send ho hstep).2
    | fault f => rfl
    | refused e => rfl

/-- SEND reads and writes no receive state (R94). -/
theorem sendFrame_withReceiveOf (op dh dl : Byte) (s r : State) :
    sendFrame op dh dl (s.withReceiveOf r) = andThen (sendFrame op dh dl s) fun t => .next (t.withReceiveOf r) := by
  have hstart : sendStart op dh dl (s.withReceiveOf r) =
      andThen (sendStart op dh dl s) fun t => .next (t.withReceiveOf r) := by
    have hbusy : (s.withReceiveOf r).txbusy = s.txbusy := rfl
    have hp : (s.withReceiveOf r).fgAt = s.fgAt := rfl
    unfold sendStart
    rw [hbusy, hp]
    split
    · rfl
    · split <;> rfl
  rw [sendFrame, hstart, sendFrame]
  cases hs : sendStart op dh dl s with
  | next t =>
    obtain ⟨-, -, rfl⟩ := sendStart_eq_next hs
    exact fgRun_withReceiveOf _ (fun _ => FgPoint.noConfusion) r
  | fault f => rfl
  | refused e => rfl

/-- In ASYNC mode RXBYTE writes RXB, CUR and the Decoded Status only (R97, R114). -/
theorem exec_rxbyte_writes_receive {b : Byte} {s t : State} (hm : s.mode = .async) (h : exec (.rxbyte b) s = .next t) :
    t = { s with rxb := t.rxb, cur := t.cur, status := t.status } := by
  rw [exec_rxbyte_async hm] at h
  rcases assemble_cases h with ⟨-, -, rfl⟩ | ⟨-, -, -, rfl⟩ | ⟨-, -, -, u, hu, rfl⟩
  · rfl
  · rfl
  · obtain ⟨op, dh, dl, -, -, -, rfl⟩ := withFrame_eq_next.mp hu
    rfl

/-- In ASYNC mode RXBYTE reads no send state (R44, R226). -/
theorem exec_rxbyte_withSendOf {b : Byte} {s t : State} (hm : s.mode = .async) (h : exec (.rxbyte b) s = .next t)
    (r : State) : exec (.rxbyte b) (s.withSendOf r) = .next (t.withSendOf r) := by
  rw [exec_rxbyte_async hm] at h
  rw [exec_rxbyte_async (s := s.withSendOf r) hm]
  rcases assemble_cases h with ⟨h0, hb, rfl⟩ | ⟨hs, hc, hl, rfl⟩ | ⟨hs, hc, hl, u, hu, rfl⟩
  · exact assemble_discard h0 hb
  · exact assemble_store (s := s.withSendOf r) hs hc hl
  · obtain ⟨op, dh, dl, h3, h5, h6, rfl⟩ := withFrame_eq_next.mp hu
    exact assemble_complete (s := s.withSendOf r) hs hc hl (withFrame_of_read h3 h5 h6)

/-- Settles O17: SEND on other receive state is SEND, with that receive state put back. -/
theorem sendIgnoresReceiveState : Obligations.SendIgnoresReceiveState := fun op dh dl s rxb cur st mode qa qe =>
  sendFrame_withReceiveOf op dh dl s
    { s with rxb := rxb, cur := cur, status := st, mode := mode, qactive := qa, qexp := qe }

/-- Settles O19: each of the two steps does on the other's next state what it did before, so both orders set both parts. -/
theorem sendCommutesWithReception : Obligations.SendCommutesWithReception := by
  intro s s1 s2 b hm ho hfg hrx
  obtain ⟨h1, -⟩ := fgStep_writes_send ho hfg
  have h2 : s2 = s.withReceiveOf s2 := by
    have h := exec_rxbyte_writes_receive hm hrx
    rw [h]
    rfl
  have hrx1 := exec_rxbyte_withSendOf hm hrx s1
  have hfg2 := fgStep_withReceiveOf ho s2
  rw [← h1] at hrx1
  rw [hfg, andThen_next, ← h2] at hfg2
  have hboth : s2.withSendOf s1 = s1.withReceiveOf s2 := calc
    s2.withSendOf s1 = (s.withReceiveOf s2).withSendOf s1 := congrArg (State.withSendOf · s1) h2
    _ = (s.withSendOf s1).withReceiveOf s2 := rfl
    _ = s1.withReceiveOf s2 := congrArg (State.withReceiveOf · s2) h1.symm
  exact ⟨_, hrx1, hboth ▸ hfg2⟩

end Sys2Proof.Machine
end

section
/-! SUPPORT. QUERY (43_response_interpreter.md R124 to R134): its bytes under the two readings of SYNC_FRAMING, where it waits,
and what it writes. Settles O34, O35, O36, O37, O38, O39, O40. -/

namespace Sys2Proof.Machine

theorem Memory.read_writeFrom_zero (m : Memory) (vs : List Byte) (a : Nat) :
    (m.writeFrom 0 vs).read a = if a < vs.length then vs[a]? else m.read a := by
  rw [Memory.read_writeFrom]
  simp only [Nat.zero_le, Nat.zero_add, Nat.sub_zero, true_and]

/-- A frame of either size has OPCODE, DATA_HIGH and DATA_LOW. -/
theorem exists_frame_data {v : Variant} {frame : List Byte} (hlen : frame.length = frameSize v) :
    ∃ op dh dl, frame[3]? = some op ∧ frame[5]? = some dh ∧ frame[6]? = some dl := by
  have h8 := (frameSize_bounds v).1
  exact ⟨_, _, _, List.getElem?_eq_getElem (by omega), List.getElem?_eq_getElem (by omega),
    List.getElem?_eq_getElem (by omega)⟩

/-- What a completed frame holds after it is written from index 0. -/
theorem read_frame {m : Memory} {v : Variant} {frame : List Byte} (hlen : frame.length = frameSize v) {i : Nat} (hi : i ≤ 6) :
    (m.writeFrom 0 frame).read i = frame[i]? := by
  have h8 := (frameSize_bounds v).1
  rw [Memory.read_writeFrom_zero, if_pos (by omega)]

/-- The stream without the bytes an agent has taken (R38). -/
def State.setInbound (s : State) (bytes : List Byte) : State := s.setEnv { s.env with inbound := bytes }

/-! One byte. -/

theorem fgStep_recv {s : State} {n : Nat} (hp : s.fgAt = .recv n) : fgStep s = recvStep n s := by
  rw [fgStep, hp]

/-- Under `resync` a byte goes through the Assembler, with QUERY's result as its `on_complete` (R125). -/
theorem fgStep_recv_resync {s : State} {n : Nat} {b : Byte} {rest : List Byte} (hp : s.fgAt = .recv n)
    (hf : s.params.framing = .resync) (hin : s.env.inbound = b :: rest) :
    fgStep s = assemble (withFrame finishQuery) b (s.setInbound rest) := by
  rw [fgStep_recv hp, recvStep, hin, hf]
  rfl

/-- Under `resync` a byte short of the frame that is not discarded is stored at the cursor (R100, R125). -/
theorem fgStep_recv_resync_store {s : State} {n : Nat} {b : Byte} {rest : List Byte} (hp : s.fgAt = .recv n)
    (hf : s.params.framing = .resync) (hin : s.env.inbound = b :: rest) (hs : s.cur = 0 → b = START)
    (hl : s.cur.toNat + 1 < frameSize s.params.variant) : fgStep s = .next (storeAndAdvance b (s.setInbound rest)) := by
  have h10 := (frameSize_bounds s.params.variant).2
  have hb : s.cur.toNat < BUF_SIZE := by omega
  rw [fgStep_recv_resync hp hf hin]
  exact assemble_store (s := s.setInbound rest) hs hb hl.ne

/-- Under `blind` a byte short of the frame is stored at the next index (R126). -/
theorem fgStep_recv_blind_store {s : State} {n : Nat} {b : Byte} {rest : List Byte} (hp : s.fgAt = .recv n)
    (hf : s.params.framing = .blind) (hin : s.env.inbound = b :: rest) (hn : n + 1 < frameSize s.params.variant) :
    fgStep s =
      .next (((s.setInbound rest).setRxb (s.rxb.write n b)).setFgAt (.recv (n + 1))) := by
  have h10 := (frameSize_bounds s.params.variant).2
  rw [fgStep_recv hp, recvStep, hin, hf]
  dsimp only
  rw [if_pos (by omega), if_neg (by omega)]
  rfl

/-- Under `blind` the last byte of a frame is stored and the frame answers (R126 to R128). -/
theorem fgStep_recv_blind_last {s : State} {n : Nat} {b : Byte} {rest : List Byte} (hp : s.fgAt = .recv n)
    (hf : s.params.framing = .blind) (hin : s.env.inbound = b :: rest) (hn : n + 1 = frameSize s.params.variant) :
    fgStep s = withFrame finishQuery
      (((s.setInbound rest).setRxb (s.rxb.write n b)).setFgAt (.recv (n + 1))) := by
  have h10 := (frameSize_bounds s.params.variant).2
  rw [fgStep_recv hp, recvStep, hin, hf]
  dsimp only
  rw [if_pos (by omega), if_pos hn]
  rfl

/-! A frame of bytes. -/

/-- Under `resync` with CUR = 0 what stands before START is discarded (R99, R125). -/
theorem fgRun_resync_discards {junk rest : List Byte} {n : Nat} {s : State} (hp : s.fgAt = .recv n)
    (hf : s.params.framing = .resync) (hj : ∀ b ∈ junk, s.cur = 0 ∧ b ≠ START) (hin : s.env.inbound = junk ++ rest) :
    fgRun junk.length s = .next (s.setInbound rest) := by
  induction junk generalizing s with
  | nil =>
    rw [List.nil_append] at hin
    rw [← hin]
    rfl
  | cons b junk ih =>
    obtain ⟨h0, hb⟩ := hj b List.mem_cons_self
    have hin' : s.env.inbound = b :: (junk ++ rest) := hin
    rw [List.length_cons, fgRun_succ, fgStep_recv_resync hp hf hin', assemble_discard (s := s.setInbound (junk ++ rest)) h0 hb,
      andThen_next]
    exact ih (s := s.setInbound (junk ++ rest)) hp hf (fun c hc => hj c (List.mem_cons_of_mem b hc)) rfl

/-- Under `resync` the bytes that a frame still wants complete it, whatever they are behind the first (R125, R127). -/
theorem fgRun_resync_completes {more rest : List Byte} {n : Nat} {op dh dl : Byte} {s : State} (hp : s.fgAt = .recv n)
    (hf : s.params.framing = .resync) (hne : more ≠ []) (hlen : s.cur.toNat + more.length = frameSize s.params.variant)
    (hs : s.cur = 0 → more[0]? = some START) (hin : s.env.inbound = more ++ rest)
    (h3 : (s.rxb.writeFrom s.cur.toNat more).read 3 = some op) (h5 : (s.rxb.writeFrom s.cur.toNat more).read 5 = some dh)
    (h6 : (s.rxb.writeFrom s.cur.toNat more).read 6 = some dl) :
    fgRun more.length s = .next (finishQuery op dh dl
      { s with rxb := s.rxb.writeFrom s.cur.toNat more, cur := 0, env := { s.env with inbound := rest } }) := by
  induction more generalizing s with
  | nil => exact absurd rfl hne
  | cons b more ih =>
    rw [List.length_cons] at hlen
    have hin' : s.env.inbound = b :: (more ++ rest) := hin
    rw [List.length_cons, fgRun_succ]
    by_cases hr : more = []
    · subst hr
      rw [fgStep_recv_resync hp hf hin', assemble_last (s := s.setInbound ([] ++ rest)) hlen, withFrame_of_read h3 h5 h6]
      rfl
    · have hpos : 0 < more.length := List.length_pos_iff.mpr hr
      have hb : s.cur.toNat < BUF_SIZE := by
        have := (frameSize_bounds s.params.variant).2
        omega
      have hadv : (storeAndAdvance b (s.setInbound (more ++ rest))).cur.toNat = s.cur.toNat + 1 := cur_advance hb
      have hmem : (storeAndAdvance b (s.setInbound (more ++ rest))).rxb.writeFrom
          (storeAndAdvance b (s.setInbound (more ++ rest))).cur.toNat more = s.rxb.writeFrom s.cur.toNat (b :: more) := by
        rw [hadv]
        rfl
      have hlen' : (storeAndAdvance b (s.setInbound (more ++ rest))).cur.toNat + more.length =
          frameSize s.params.variant := by omega
      have hs' : (storeAndAdvance b (s.setInbound (more ++ rest))).cur = 0 → more[0]? = some START := fun h0 => by
        rw [cur_eq_zero_iff] at h0
        omega
      rw [fgStep_recv_resync_store hp hf hin' (fun h0 => Option.some.inj (hs h0)) (by omega), andThen_next,
        ih (s := storeAndAdvance b (s.setInbound (more ++ rest))) hp hf hr hlen' hs' rfl (hmem ▸ h3) (hmem ▸ h5)
          (hmem ▸ h6), hmem]
      rfl

/-- Under `blind` the bytes that a frame still wants complete it, and CUR has no part in it (R126, R127). -/
theorem fgRun_blind_completes {more rest : List Byte} {n : Nat} {op dh dl : Byte} {s : State} (hp : s.fgAt = .recv n)
    (hf : s.params.framing = .blind) (hne : more ≠ []) (hlen : n + more.length = frameSize s.params.variant)
    (hin : s.env.inbound = more ++ rest) (h3 : (s.rxb.writeFrom n more).read 3 = some op)
    (h5 : (s.rxb.writeFrom n more).read 5 = some dh) (h6 : (s.rxb.writeFrom n more).read 6 = some dl) :
    fgRun more.length s = .next (finishQuery op dh dl
      { s with rxb := s.rxb.writeFrom n more, env := { s.env with inbound := rest } }) := by
  induction more generalizing s n with
  | nil => exact absurd rfl hne
  | cons b more ih =>
    rw [List.length_cons] at hlen
    have hin' : s.env.inbound = b :: (more ++ rest) := hin
    rw [List.length_cons, fgRun_succ]
    by_cases hr : more = []
    · subst hr
      rw [fgStep_recv_blind_last hp hf hin' hlen, withFrame_of_read h3 h5 h6, finishQuery_eq, finishQuery_eq]
      rfl
    · have hpos : 0 < more.length := List.length_pos_iff.mpr hr
      rw [fgStep_recv_blind_store hp hf hin' (by omega), andThen_next]
      have hlen' : n + 1 + more.length = frameSize s.params.variant := by omega
      rw [ih (s := ((s.setInbound (more ++ rest)).setRxb (s.rxb.write n b)).setFgAt (.recv (n + 1))) rfl hf hr hlen' rfl
        h3 h5 h6, finishQuery_eq, finishQuery_eq]
      rfl

/-! The whole QUERY. -/

/-- What a completed QUERY leaves: RXB and CUR by its reading of SYNC_FRAMING, the result, the bytes behind the frame (R124). -/
def afterQuery (e op dh dl : Byte) (rxb : Memory) (cur : BitVec CUR_BITS) (rest : List Byte) (s : State) : State :=
  { s with
    rxb := rxb, cur := cur, qexp := e, qactive := false, env := { s.env with inbound := rest }
    trace := s.trace ++ [.returned (queryResult e op dh dl)] }

theorem finishQuery_queryBegin {s : State} (hidle : s.fgAt = .idle) (e op dh dl : Byte) (rxb : Memory)
    (cur : BitVec CUR_BITS) (rest : List Byte) :
    finishQuery op dh dl { queryBegin e s with rxb := rxb, cur := cur, env := { s.env with inbound := rest } } =
      afterQuery e op dh dl rxb cur rest s := by
  rw [finishQuery_eq, afterQuery, ← hidle]
  rfl

theorem queryFor_of_idle (e : Byte) {s : State} (hm : s.mode = .sync) (hidle : s.fgAt = .idle) :
    queryFor e s = fgContinue (queryBegin e s) := by
  rw [queryFor, queryStart, if_neg (by rw [hm]; decide), if_pos hidle, andThen_next]

/-- A run of a QUERY that completes is the whole QUERY, as FG takes at most one step for each byte that waits. -/
theorem queryFor_of_fgRun {a : Nat} {e : Byte} {s t : State} (hm : s.mode = .sync) (hidle : s.fgAt = .idle)
    (h : fgRun a (queryBegin e s) = .next t) (ht : fgStep t = .next t) (ha : a ≤ s.env.inbound.length) :
    queryFor e s = .next t := by
  rw [queryFor_of_idle e hm hidle]
  exact fgContinue_of_fgRun h ht (ha.trans (Nat.le_add_left _ _))

/-- QUERY under `resync`: discard, the bytes that the frame wants, the answer (R125, R127, R128). -/
theorem queryFor_resync {e op dh dl : Byte} {junk more rest : List Byte} {s : State} (hm : s.mode = .sync)
    (hidle : s.fgAt = .idle) (hf : s.params.framing = .resync) (hj : ∀ b ∈ junk, s.cur = 0 ∧ b ≠ START) (hne : more ≠ [])
    (hlen : s.cur.toNat + more.length = frameSize s.params.variant) (hs : s.cur = 0 → more[0]? = some START)
    (hin : s.env.inbound = junk ++ more ++ rest) (h3 : (s.rxb.writeFrom s.cur.toNat more).read 3 = some op)
    (h5 : (s.rxb.writeFrom s.cur.toNat more).read 5 = some dh)
    (h6 : (s.rxb.writeFrom s.cur.toNat more).read 6 = some dl) :
    queryFor e s = .next (afterQuery e op dh dl (s.rxb.writeFrom s.cur.toNat more) 0 rest s) := by
  have hdiscard := fgRun_resync_discards (s := queryBegin e s) rfl hf hj
    (hin.trans (List.append_assoc junk more rest))
  have hframe := fgRun_resync_completes
    (s := (queryBegin e s).setInbound (more ++ rest)) rfl hf hne hlen hs rfl h3 h5 h6
  refine queryFor_of_fgRun (a := junk.length + more.length) hm hidle ?_ (fgStep_of_idle hidle) ?_
  · rw [fgRun_add, hdiscard, andThen_next, ← finishQuery_queryBegin hidle]
    exact hframe
  · rw [hin, List.length_append, List.length_append]
    omega

/-- QUERY under `blind`: the next FRAME_SIZE bytes, the answer (R126 to R128). -/
theorem queryFor_blind {e op dh dl : Byte} {frame rest : List Byte} {s : State} (hm : s.mode = .sync)
    (hidle : s.fgAt = .idle) (hf : s.params.framing = .blind) (hlen : frame.length = frameSize s.params.variant)
    (hin : s.env.inbound = frame ++ rest) (h3 : frame[3]? = some op) (h5 : frame[5]? = some dh)
    (h6 : frame[6]? = some dl) :
    queryFor e s = .next (afterQuery e op dh dl (s.rxb.writeFrom 0 frame) s.cur rest s) := by
  have h8 := (frameSize_bounds s.params.variant).1
  have hread := fun (i : Nat) (hi : i ≤ 6) => read_frame (m := s.rxb) hlen hi
  have hframe := fgRun_blind_completes (s := queryBegin e s) rfl hf (List.ne_nil_of_length_pos (by omega))
    ((Nat.zero_add _).trans hlen) hin ((hread 3 (by decide)).trans h3) ((hread 5 (by decide)).trans h5)
    ((hread 6 (by decide)).trans h6)
  refine queryFor_of_fgRun (a := frame.length) hm hidle ?_ (fgStep_of_idle hidle) ?_
  · rw [← finishQuery_queryBegin hidle]
    exact hframe
  · rw [hin, List.length_append]
    omega

/-- QUERY under `resync` from CUR = 0 on a stream that holds one whole frame behind bytes that are not START. -/
theorem queryFor_resync_frame {e op dh dl : Byte} {junk frame rest : List Byte} {s : State} (hm : s.mode = .sync)
    (hidle : s.fgAt = .idle) (hf : s.params.framing = .resync) (h0 : s.cur = 0) (hj : ∀ b ∈ junk, b ≠ START)
    (hlen : frame.length = frameSize s.params.variant) (hs : frame[0]? = some START)
    (hin : s.env.inbound = junk ++ frame ++ rest) (h3 : frame[3]? = some op) (h5 : frame[5]? = some dh)
    (h6 : frame[6]? = some dl) :
    queryFor e s = .next (afterQuery e op dh dl (s.rxb.writeFrom 0 frame) s.cur rest s) := by
  have h8 := (frameSize_bounds s.params.variant).1
  have hc : s.cur.toNat = 0 := (cur_eq_zero_iff _).mp h0
  have hread := fun (i : Nat) (hi : i ≤ 6) => read_frame (m := s.rxb) hlen hi
  have hrun := queryFor_resync (e := e) (op := op) (dh := dh) (dl := dl) hm hidle hf (fun b hb => ⟨h0, hj b hb⟩)
    (List.ne_nil_of_length_pos (by omega)) (by omega) (fun _ => hs) hin (by rw [hc, hread 3 (by decide), h3])
    (by rw [hc, hread 5 (by decide), h5]) (by rw [hc, hread 6 (by decide), h6])
  rw [hrun, hc, h0]

/-! A QUERY whose bytes run out. -/

/-- How many bytes of its frame a QUERY in `recv` has (R125, R126). -/
def frameTaken (n : Nat) (s : State) : Nat :=
  if s.params.framing = .resync then s.cur.toNat else n

/-- What a step of `recv` short of the frame keeps of the QUERY. -/
def SameQuery (s t : State) : Prop :=
  t.params = s.params ∧ t.qactive = s.qactive ∧ t.qexp = s.qexp ∧ t.trace = s.trace

theorem SameQuery.trans {s t u : State} (h : SameQuery s t) (h' : SameQuery t u) : SameQuery s u := by
  obtain ⟨h1, h2, h3, h4⟩ := h
  obtain ⟨h1', h2', h3', h4'⟩ := h'
  exact ⟨h1'.trans h1, h2'.trans h2, h3'.trans h3, h4'.trans h4⟩

/-- A byte short of the frame: it is taken, the frame grows by at most one, and the QUERY waits in `recv` again. -/
theorem fgStep_recv_short {s : State} {n : Nat} {b : Byte} {rest : List Byte} (hp : s.fgAt = .recv n)
    (hin : s.env.inbound = b :: rest) (hshort : frameTaken n s + 1 < frameSize s.params.variant) :
    ∃ t m, fgStep s = .next t ∧ t.fgAt = .recv m ∧ t.env.inbound = rest ∧ frameTaken m t ≤ frameTaken n s + 1 ∧
      SameQuery s t := by
  cases hf : s.params.framing with
  | resync =>
    have htaken : ∀ (m : Nat) (t : State), t.params = s.params → frameTaken m t = t.cur.toNat := fun m t ht =>
      if_pos (by rw [ht, hf])
    rw [htaken n s rfl] at hshort ⊢
    by_cases hd : s.cur = 0 ∧ b ≠ START
    · refine ⟨_, n, (fgStep_recv_resync hp hf hin).trans (assemble_discard hd.1 hd.2), hp, rfl, ?_, rfl, rfl, rfl, rfl⟩
      exact (htaken n (s.setInbound rest) rfl).trans_le (Nat.le_succ _)
    · have hs : s.cur = 0 → b = START := fun h0 => not_not.mp fun hb => hd ⟨h0, hb⟩
      have hb : s.cur.toNat < BUF_SIZE := by
        have := (frameSize_bounds s.params.variant).2
        omega
      refine ⟨_, n, fgStep_recv_resync_store hp hf hin hs hshort, hp, rfl, ?_, rfl, rfl, rfl, rfl⟩
      exact (htaken n (storeAndAdvance b (s.setInbound rest)) rfl).trans_le (cur_advance hb).le
  | blind =>
    have htaken : ∀ (m : Nat) (t : State), t.params = s.params → frameTaken m t = m := fun m t ht =>
      if_neg (by rw [ht, hf]; decide)
    rw [htaken n s rfl] at hshort ⊢
    refine ⟨_, n + 1, fgStep_recv_blind_store hp hf hin hshort, rfl, rfl,
      (htaken (n + 1) _ rfl).le, rfl, rfl, rfl, rfl⟩

/-- Too few bytes: QUERY takes them all and waits (R130). -/
theorem fgRun_recv_short {s : State} {n : Nat} (hp : s.fgAt = .recv n)
    (hshort : s.env.inbound.length + frameTaken n s < frameSize s.params.variant) :
    ∃ t m, fgRun s.env.inbound.length s = .next t ∧ t.fgAt = .recv m ∧ t.env.inbound = [] ∧ SameQuery s t := by
  generalize hin : s.env.inbound = bytes at hshort ⊢
  induction bytes generalizing s n with
  | nil => exact ⟨s, n, rfl, hp, hin, rfl, rfl, rfl, rfl⟩
  | cons b rest ih =>
    rw [List.length_cons] at hshort ⊢
    obtain ⟨u, m, hstep, hpu, hinu, htaken, hsame⟩ := fgStep_recv_short hp hin (by omega)
    obtain ⟨t, k, hrun, hpt, hint, hsame'⟩ := ih hpu hinu (by rw [hsame.1]; omega)
    exact ⟨t, k, by rw [fgRun_succ, hstep, andThen_next, hrun], hpt, hint, hsame.trans hsame'⟩

/-! What QUERY writes. -/

/-- `s` with what the steps of a QUERY may write, from `r`: RXB, CUR, QACTIVE, FG's point, the stream and the record. -/
def State.withQueryOf (s r : State) : State :=
  { s with
    rxb := r.rxb, cur := r.cur, qactive := r.qactive, fgAt := r.fgAt, env := { s.env with inbound := r.env.inbound }
    trace := r.trace }

/-- FG is inside a QUERY or, behind it, between operations. -/
def InQueryOrIdle (s : State) : Prop := s.fgAt = .idle ∨ ∃ n, s.fgAt = .recv n

/-- A step of `recv` writes nothing else, and ends inside the QUERY or with it (R125 to R129). -/
theorem recvStep_writes_query {n : Nat} {s t : State} (hp : s.fgAt = .recv n) (h : recvStep n s = .next t) :
    t = s.withQueryOf t ∧ InQueryOrIdle t := by
  rcases recvStep_cases h with ⟨-, rfl⟩ | ⟨b, rest, -, ⟨-, ha⟩ | ⟨-, -, ⟨-, rfl⟩ | ⟨-, hw⟩⟩⟩
  · exact ⟨rfl, .inr ⟨n, hp⟩⟩
  · rcases assemble_cases ha with ⟨-, -, rfl⟩ | ⟨-, -, -, rfl⟩ | ⟨-, -, -, u, hu, rfl⟩
    · exact ⟨rfl, .inr ⟨n, hp⟩⟩
    · exact ⟨rfl, .inr ⟨n, hp⟩⟩
    · obtain ⟨op, dh, dl, -, -, -, rfl⟩ := withFrame_eq_next.mp hu
      exact ⟨rfl, .inl rfl⟩
  · exact ⟨rfl, .inr ⟨n + 1, rfl⟩⟩
  · obtain ⟨op, dh, dl, -, -, -, rfl⟩ := withFrame_eq_next.mp hw
    exact ⟨rfl, .inl rfl⟩

/-- So does every internal step of FG there. -/
theorem fgStep_writes_query {s t : State} (hq : InQueryOrIdle s) (h : fgStep s = .next t) :
    t = s.withQueryOf t ∧ InQueryOrIdle t := by
  rcases hq with hp | ⟨n, hp⟩
  · rw [fgStep_of_idle hp] at h
    cases h
    exact ⟨rfl, .inl hp⟩
  · exact recvStep_writes_query hp ((fgStep_recv hp).symm.trans h)

/-- A QUERY writes QEXP on its first line and, besides, what its steps write (R124). -/
theorem queryFor_writes_query {e : Byte} {s t : State} (h : queryFor e s = .next t) :
    t = ({ s with qexp := e } : State).withQueryOf t := by
  obtain ⟨-, -, hrun⟩ := queryFor_eq_next h
  exact (fgRun_keeps (P := fun u => u = ({ s with qexp := e } : State).withQueryOf u ∧ InQueryOrIdle u)
    (fun u v ⟨hu, hqu⟩ huv => by
      obtain ⟨hv, hqv⟩ := fgStep_writes_query hqu huv
      exact ⟨hv.trans (congrArg (State.withQueryOf · v) hu :), hqv⟩)
    ⟨rfl, .inr ⟨0, rfl⟩⟩ hrun).1

/-- Settles O34: QUERY tests MODE first. -/
theorem queryInAsyncModeIsRefused : Obligations.QueryInAsyncModeIsRefused := by
  intro e s hm
  change queryFor e s = _
  rw [queryFor, queryStart, if_pos hm, andThen_refused]

/-- Settles O35: the bytes before START are discarded, and the frame is read as it stands in RXB. -/
theorem queryResyncAnswersTheNextFrame : Obligations.QueryResyncAnswersTheNextFrame := by
  intro e junk frame rest s hm hidle hf h0 hj hlen hs hin
  obtain ⟨op, dh, dl, h3, h5, h6⟩ := exists_frame_data hlen
  exact ⟨_, op, dh, dl, queryFor_resync_frame hm hidle hf h0 hj hlen hs hin h3 h5 h6, h3, h5, h6,
    fun a => hlen ▸ Memory.read_writeFrom_zero s.rxb frame a, rfl⟩

/-- Settles O36: the old bytes below CUR have values, so the mixture can be read. -/
theorem queryResyncCompletesAnUnfinishedFrame : Obligations.QueryResyncCompletesAnUnfinishedFrame := by
  rintro e more rest s ⟨-, -, hc, hh, -⟩ hm hidle hf hne hlen hin
  have hlen' : s.cur.toNat + more.length = frameSize s.params.variant := (Nat.add_comm _ _).trans hlen
  obtain ⟨op, dh, dl, h3, h5, h6⟩ := exists_data_of_writeFrom hh hlen'
  have hrun := queryFor_resync (e := e) (junk := []) hm hidle hf (fun b hb => absurd hb List.not_mem_nil)
    (List.ne_nil_of_length_pos (by omega)) hlen' (fun h0 => absurd h0 hne) hin h3 h5 h6
  refine ⟨_, op, dh, dl, hrun, fun a => ?_, h3, h5, h6, rfl⟩
  rw [afterQuery, Memory.read_writeFrom, hlen']

/-- Settles O37: the bytes are stored from index 0 on, and CUR has no part in it. -/
theorem queryBlindTakesTheNextBytes : Obligations.QueryBlindTakesTheNextBytes := by
  intro e frame rest s hm hidle hf hlen hin
  obtain ⟨op, dh, dl, h3, h5, h6⟩ := exists_frame_data hlen
  exact ⟨_, op, dh, dl, queryFor_blind hm hidle hf hlen hin h3 h5 h6, h3, h5, h6,
    fun a => hlen ▸ Memory.read_writeFrom_zero s.rxb frame a, rfl⟩

/-- Settles O38: both readings write the frame from index 0 on and leave CUR = 0. -/
theorem readingsAgreeOnAlignedStreams : Obligations.ReadingsAgreeOnAlignedStreams := by
  intro e frame rest s hm hidle h0 hlen hs hin
  obtain ⟨op, dh, dl, h3, h5, h6⟩ := exists_frame_data hlen
  have hresync := queryFor_resync_frame (e := e) (junk := [])
    (s := { s with params := { s.params with framing := .resync } }) hm hidle rfl h0
    (fun b hb => absurd hb List.not_mem_nil) hlen hs hin h3 h5 h6
  have hblind := queryFor_blind (e := e) (s := { s with params := { s.params with framing := .blind } }) hm hidle rfl hlen
    hin h3 h5 h6
  exact ⟨_, _, hresync, hblind, rfl⟩

/-- Settles O39: the run takes every byte that waits and ends where `recv` blocks. -/
theorem queryStaysStuckWithoutBytes : Obligations.QueryStaysStuckWithoutBytes := by
  intro e s _ hm hidle hshort
  obtain ⟨t, m, hrun, hp, hin, -, hq, he, htr⟩ := fgRun_recv_short (s := queryBegin e s) (n := 0) rfl hshort
  have hblocked : FgBlocked t := .inr (.inr ⟨⟨m, hp⟩, hin⟩)
  exact ⟨t, queryFor_of_fgRun hm hidle hrun (fgStep_of_blocked hblocked) le_rfl, hq, he, hin, htr, hblocked,
    takeTurn_of_blocked hblocked⟩

/-- Settles O40: neither the run of a QUERY nor a later step inside it writes one of these. -/
theorem queryWritesNoStatus : Obligations.QueryWritesNoStatus := by
  refine ⟨fun e s t h => ?_, fun n s t hp h => ?_⟩
  · rw [queryFor_writes_query h]
    exact ⟨rfl, rfl, rfl, rfl⟩
  · rw [(fgStep_writes_query (.inr ⟨n, hp⟩) h).1]
    exact ⟨rfl, rfl, rfl, rfl⟩

end Sys2Proof.Machine
end

section
/-! SUPPORT. Host control (45_host_control.md R181 to R186). Settles O41, O42, O43. -/

namespace Sys2Proof.Machine

/-- A cleared flag is 0, any other is as before (R183). -/
theorem flag_and_not_eq_ite (flag clear : Bool) : (flag && !clear) = if clear = true then false else flag := by
  cases clear
  · exact Bool.and_true flag
  · exact Bool.and_false flag

/-- The indexes 5 to 7 name no field (R185). -/
theorem statusField_eq_none {f : BitVec 3} (h : 5 ≤ f.toNat) (st : Status) : statusField f st = none := by
  unfold statusField
  split
  case h_6 => rfl
  all_goals omega

/-- Settles O41: the arm's one test is R181's "require". -/
theorem setmodeWritesModeOnly : Obligations.SetmodeWritesModeOnly := by
  refine fun m s => ⟨fun htx hq => ?_, fun h => ?_⟩
  · change execSetmode m s = _
    rw [execSetmode, if_neg (by rw [htx, hq]; decide)]
    rfl
  · change execSetmode m s = _
    rw [execSetmode, if_pos (Bool.or_eq_true _ _ |>.mpr h)]

/-- Settles O42: each field of the cleared status by its mask bit. -/
theorem clrstatClearsTheMask : Obligations.ClrstatClearsTheMask := fun mask s =>
  ⟨s.setStatus (clearStatus mask s.status), rfl, rfl, flag_and_not_eq_ite _ _, flag_and_not_eq_ite _ _,
    flag_and_not_eq_ite _ _, rfl, rfl⟩

/-- Settles O43: the five indexes by computation, the rest by the range of the index. -/
theorem rdstatReturnsTheField : Obligations.RdstatReturnsTheField := by
  refine fun s => ⟨rfl, rfl, rfl, rfl, rfl, fun f hf => ?_⟩
  change execRdstat f s = _
  rw [execRdstat, statusField_eq_none hf]

end Sys2Proof.Machine
end

section
/-! SUPPORT. The turns of the agents and reset (R13, R32, R48, R198 to R200, R213). Settles O44, O45, O46, O47, O48, O58, O60. -/

namespace Sys2Proof.Machine

/-- The turn that the list names is taken, without that turn in the list (log 9). -/
theorem step_of_turn {s : State} {t : Turn} {turns : List Turn} (h : s.env.turns = t :: turns) :
    step s = takeTurn t (s.setEnv { s.env with turns := turns }) := by
  rw [step, nextTransition, h]

theorem step_of_no_turn {s : State} (h : s.env.turns = []) : step s = takeTurn (defaultTurn s) s := by
  rw [step, nextTransition, h]

/-- With no turn named FG moves where IRQ has no byte to take (log 9). -/
theorem defaultTurn_eq_fg {s : State} (h : s.mode = .sync ∨ s.env.inbound = []) : defaultTurn s = .fg := by
  unfold defaultTurn
  split
  · next hm hin =>
    rcases h with h | h
    · rw [hm] at h; cases h
    · rw [hin] at h; cases h
  · rfl

/-- With no turn named IRQ moves where it has a byte to take (log 9, R199). -/
theorem defaultTurn_eq_irq {s : State} {b : Byte} {rest : List Byte} (hm : s.mode = .async)
    (hin : s.env.inbound = b :: rest) : defaultTurn s = .irq := by
  rw [defaultTurn, hm, hin]

/-- No IRQ step occurs in SYNC mode or without a byte (R198). -/
theorem irqTurn_eq_self {s : State} (h : s.mode = .sync ∨ s.env.inbound = []) : irqTurn s = .next s := by
  unfold irqTurn
  split
  · next hm hin =>
    rcases h with h | h
    · rw [hm] at h; cases h
    · rw [hin] at h; cases h
  · rfl

/-- In ASYNC mode IRQ takes the oldest waiting byte (R198, R200). -/
theorem irqTurn_of_byte {s : State} {b : Byte} {rest : List Byte} (hm : s.mode = .async)
    (hin : s.env.inbound = b :: rest) : irqTurn s = exec (.rxbyte b) (s.setInbound rest) := by
  rw [irqTurn, hm, hin]
  rfl

/-- FG's issue of a transaction that decodes (R13, R204). -/
theorem issueWith_of_decode {s : State} {t : Txn} {rest : List Txn} {i : Instr} (hops : s.env.ops = t :: rest)
    (hd : decode t = .ok i) (run : Instr → State → Answer) :
    issueWith run s =
      if isForeground i then run i (s.setEnv { s.env with ops := rest }) else .refused .notForeground := by
  rw [issueWith, hops]
  dsimp only
  rw [hd]

/-- FG's issue of a transaction that is no instruction (log 15). -/
theorem issueWith_of_decode_error {s : State} {t : Txn} {rest : List Txn} {e : DecodeError} (hops : s.env.ops = t :: rest)
    (hd : decode t = .error e) (run : Instr → State → Answer) : issueWith run s = .refused (.undecodable e) := by
  rw [issueWith, hops]
  dsimp only
  rw [hd]

/-- FG's turns between operations, where the oldest transaction decodes (log 8, log 21). -/
theorem takeTurn_fg_of_decode {s : State} {t : Txn} {rest : List Txn} {i : Instr} (hidle : s.fgAt = .idle)
    (hops : s.env.ops = t :: rest) (hd : decode t = .ok i) :
    takeTurn .fg s =
      if isForeground i then exec i (s.setEnv { s.env with ops := rest }) else .refused .notForeground :=
  (if_pos hidle).trans (issueWith_of_decode hops hd exec)

theorem takeTurn_fgInternal_of_decode {s : State} {t : Txn} {rest : List Txn} {i : Instr} (hidle : s.fgAt = .idle)
    (hops : s.env.ops = t :: rest) (hd : decode t = .ok i) :
    takeTurn .fgInternal s =
      if isForeground i then startOperation i (s.setEnv { s.env with ops := rest }) else .refused .notForeground :=
  (if_pos hidle).trans (issueWith_of_decode hops hd startOperation)

/-- A step by which FG issues an operation on its turn `fg` (log 8). -/
theorem step_of_issues_fg {s s' : State} {i : Instr} (h : Issues .fg s i s') :
    step s = if isForeground i then exec i s' else .refused .notForeground := by
  obtain ⟨hidle, t, rest, hops, hd, ⟨turns, ht, rfl⟩ | ⟨-, ht, hquiet, rfl⟩⟩ := h
  · exact (step_of_turn ht).trans (takeTurn_fg_of_decode (s := s.setEnv { s.env with turns := turns }) hidle hops hd)
  · rw [step_of_no_turn ht, defaultTurn_eq_fg hquiet]
    exact takeTurn_fg_of_decode hidle hops hd

/-- A step by which FG issues an operation on its turn `fgInternal` (log 7). -/
theorem step_of_issues_fgInternal {s s' : State} {i : Instr} (h : Issues .fgInternal s i s') :
    step s = if isForeground i then startOperation i s' else .refused .notForeground := by
  obtain ⟨hidle, t, rest, hops, hd, ⟨turns, ht, rfl⟩ | ⟨hturn, -⟩⟩ := h
  · exact (step_of_turn ht).trans
      (takeTurn_fgInternal_of_decode (s := s.setEnv { s.env with turns := turns }) hidle hops hd)
  · cases hturn

/-- An issue leaves FG's point to the operation. -/
theorem fgAt_of_issues {turn : Turn} {s s' : State} {i : Instr} (h : Issues turn s i s') : s'.fgAt = .idle := by
  obtain ⟨hidle, t, rest, -, -, ⟨turns, -, rfl⟩ | ⟨-, -, -, rfl⟩⟩ := h
  · exact hidle
  · exact hidle

/-- Settles O44: IRQ's turn is gated by MODE and by the stream, and then it is RXBYTE in ASYNC mode. -/
theorem interruptIsGatedByMode : Obligations.InterruptIsGatedByMode := by
  intro s turns ht
  refine ⟨fun hm => ?_, fun _ hin => ?_, fun b rest hm hin => ?_⟩
  · rw [step_of_turn ht]
    exact irqTurn_eq_self (s := s.setEnv _) (.inl hm)
  · rw [step_of_turn ht]
    exact irqTurn_eq_self (s := s.setEnv _) (.inr hin)
  · obtain ⟨e, he⟩ : ∃ e, e = { s.env with inbound := rest, turns := turns } := ⟨_, rfl⟩
    have hstep : step s = exec (.rxbyte b) (s.setEnv e) := by
      rw [step_of_turn ht, he]
      exact irqTurn_of_byte (s := s.setEnv { s.env with turns := turns }) hm hin
    rw [hstep, ← he]
    exact ⟨exec_rxbyte_async (s := s.setEnv e) hm b, fun t h => exec_rxbyte_writes_receive (s := s.setEnv e) hm h⟩

/-- Settles O45: the two turns differ in how far FG goes; what is none of FG's operations is refused before either. -/
theorem stepRunsTheDecodedOperation : Obligations.StepRunsTheDecodedOperation := by
  refine fun s s' i => ⟨fun h hf => ?_, fun h hf => ?_, fun h hf => ?_⟩
  · rw [step_of_issues_fg h, if_pos hf]
  · have hstep : step s = startOperation i s' := by rw [step_of_issues_fgInternal h, if_pos hf]
    exact ⟨hstep, hstep ▸ exec_eq_startOperation hf (fgAt_of_issues h)⟩
  · have hnot : ¬ isForeground i = true := by rw [hf]; decide
    rcases h with h | h
    · rw [step_of_issues_fg h, if_neg hnot]
    · rw [step_of_issues_fgInternal h, if_neg hnot]

/-- Settles O46: the default turn is IRQ's there. -/
theorem stepWithoutTurnsLetsIrqPreempt : Obligations.StepWithoutTurnsLetsIrqPreempt := by
  intro s b rest ht hm hin
  rw [step_of_no_turn ht, defaultTurn_eq_irq hm hin]
  exact irqTurn_of_byte hm hin

/-- Settles O47: power-up and State.reset build the registers alike. -/
theorem resetLeavesTheStatedValues : Obligations.ResetLeavesTheStatedValues := by
  intro s turns ht
  refine ⟨powerUpTurn (s.setEnv { s.env with turns := turns }), step_of_turn ht, rfl, ?_⟩
  rintro u (rfl | rfl)
  · exact ⟨rfl, rfl, rfl, rfl, rfl, fun _ => ⟨rfl, rfl⟩⟩
  · exact ⟨rfl, rfl, rfl, rfl, rfl, fun _ => ⟨rfl, rfl⟩⟩

/-- After power-up the memories are empty, CUR is 0 and FG between operations, whatever the configuration (R32, R213). -/
theorem stateInv_afterPowerUp (p : Params) (e : Env) (trace : List Event) : StateInv (State.afterPowerUp p e trace) := by
  have h8 := (frameSize_bounds p.variant).1
  have hcur : 0 < frameSize p.variant := by omega
  exact ⟨rfl, rfl, hcur, fun i hi => absurd hi (Nat.not_lt_zero i), rfl, rfl⟩

theorem startInv_afterPowerUp (p : Params) (e : Env) (trace : List Event) : StartInv (State.afterPowerUp p e trace) :=
  fun _ hc => absurd hc (Nat.lt_irrefl 0)

/-- Settles O48: State.reset is a state after power-up. -/
theorem invariantsHoldAtReset : Obligations.InvariantsHoldAtReset :=
  ⟨stateInv_afterPowerUp _ _ _, startInv_afterPowerUp _ _ _⟩

/-- Settles O58: each of these turns is one update of the environment. -/
theorem environmentTurns : Obligations.EnvironmentTurns := fun _ _ _ => ⟨rfl, rfl, rfl⟩

/-- Settles O60: the issue is refused before anything runs. -/
theorem undecodableTransactionsAreRefused : Obligations.UndecodableTransactionsAreRefused := by
  intro s t rest turns e hidle hops ht hd
  have hissue : issueWith exec (s.setEnv { s.env with turns := turns }) = .refused (.undecodable e) :=
    issueWith_of_decode_error (s := s.setEnv { s.env with turns := turns }) hops hd exec
  exact (step_of_turn ht).trans ((if_pos hidle).trans hissue)

end Sys2Proof.Machine
end

section
/-! SUPPORT. What each instruction and each step may write (R7, R15 to R17, R25, R33, R104, R122, R204). Settles O50, O52, O53,
O54, O55, O56. -/

namespace Sys2Proof.Machine

/-! The instructions. -/

/-- A SEND writes send state only (R94). -/
theorem sendFrame_writes_send {op dh dl : Byte} {s t : State} (h : sendFrame op dh dl s = .next t) :
    t = s.withSendOf t := by
  obtain ⟨-, -, hrun⟩ := sendFrame_eq_next h
  exact (fgRun_writes_send (s := sendBegin op dh dl s) (fun _ => FgPoint.noConfusion) hrun).1

/-- A completed frame read by the Response Interpreter writes the status, or ends the QUERY (R113). -/
theorem interpret_writes (op dh dl : Byte) (s : State) :
    interpret op dh dl s = { s with
      status := (interpret op dh dl s).status, qactive := (interpret op dh dl s).qactive,
      fgAt := (interpret op dh dl s).fgAt, trace := (interpret op dh dl s).trace } := by
  rcases interpret_cases op dh dl s with ⟨-, h⟩ | ⟨-, -, h⟩ | ⟨-, -, h⟩
  · rw [h]; rfl
  · rw [h]; rfl
  · rw [h]

theorem CompletesAtOnce.keeps_memories {i : Instr} {s t : State} (h : CompletesAtOnce i s t) :
    t.params = s.params ∧ t.rxb = s.rxb ∧ t.cur = s.cur ∧ t.env = s.env := by
  rcases h with ⟨r, rfl⟩ | ⟨m, -, -, -, rfl⟩ | ⟨mask, -, rfl⟩ <;> exact ⟨rfl, rfl, rfl, rfl⟩

/-- Settles O55: by the shape of the instruction's arm, each with what it writes. -/
theorem instructionsWriteOnlyTheirState : Obligations.InstructionsWriteOnlyTheirState := by
  intro i s t h
  rcases exec_shape i with ⟨op, dh, dl, hop, hexec⟩ | ⟨op, dh, dl, hport, hexec⟩ | ⟨b1, b2, b3, b4, b5, b6, rfl⟩ |
    ⟨op, dh, dl, rfl⟩ | ⟨b, rfl⟩ | ⟨e, rfl⟩ | ⟨m, rfl⟩ | ⟨mask, rfl⟩ | ⟨f, rfl⟩
  · rw [hexec] at h
    rw [sendFrame_writes_send h]
    exact ⟨fun hnot => absurd (hop.symm.trans hnot) (Option.some_ne_none op), fun _ _ => ⟨rfl, rfl⟩, fun _ _ _ => rfl,
      fun _ => rfl, fun _ _ => ⟨rfl, rfl⟩⟩
  · rw [hexec, interpret_writes] at h
    cases h
    exact ⟨fun _ => ⟨rfl, rfl⟩, fun _ _ => ⟨rfl, rfl⟩, fun _ _ hnot => absurd hport hnot, fun _ => rfl,
      fun _ hnot => absurd hport hnot⟩
  · cases h
    exact ⟨fun _ => ⟨rfl, rfl⟩, fun _ _ => ⟨rfl, rfl⟩, fun _ _ _ => rfl, fun _ => rfl, fun _ _ => ⟨rfl, rfl⟩⟩
  · cases h
    exact ⟨fun _ => ⟨rfl, rfl⟩, fun _ _ => ⟨rfl, rfl⟩, fun _ _ _ => rfl, fun _ => rfl, fun _ _ => ⟨rfl, rfl⟩⟩
  · have hkeeps : t.txb = s.txb ∧ t.txbusy = s.txbusy ∧ t.mode = s.mode ∧ t.qactive = s.qactive ∧ t.qexp = s.qexp := by
      cases hm : s.mode with
      | sync =>
        rw [exec_rxbyte_sync hm] at h
        cases h
        exact ⟨rfl, rfl, hm, rfl, rfl⟩
      | async =>
        rw [exec_rxbyte_writes_receive hm h]
        exact ⟨rfl, rfl, hm, rfl, rfl⟩
    obtain ⟨htxb, htx, hmode, hqa, hqe⟩ := hkeeps
    exact ⟨fun _ => ⟨htxb, htx⟩, fun hnot _ => absurd rfl (hnot b), fun hnot _ _ => absurd rfl (hnot b), fun _ => hmode,
      fun _ _ => ⟨hqa, hqe⟩⟩
  · rw [queryFor_writes_query h]
    exact ⟨fun _ => ⟨rfl, rfl⟩, fun _ hnot => absurd rfl (hnot e), fun _ _ _ => rfl, fun _ => rfl,
      fun hnot _ => absurd rfl (hnot e)⟩
  · obtain ⟨-, -, rfl⟩ := execSetmode_eq_next h
    exact ⟨fun _ => ⟨rfl, rfl⟩, fun _ _ => ⟨rfl, rfl⟩, fun _ _ _ => rfl, fun hnot => absurd rfl (hnot m),
      fun _ _ => ⟨rfl, rfl⟩⟩
  · cases h
    exact ⟨fun _ => ⟨rfl, rfl⟩, fun _ _ => ⟨rfl, rfl⟩, fun _ hnot _ => absurd rfl (hnot mask), fun _ => rfl,
      fun _ _ => ⟨rfl, rfl⟩⟩
  · obtain ⟨v, -, rfl⟩ := execRdstat_eq_next h
    exact ⟨fun _ => ⟨rfl, rfl⟩, fun _ _ => ⟨rfl, rfl⟩, fun _ _ _ => rfl, fun _ => rfl, fun _ _ => ⟨rfl, rfl⟩⟩

/-! The steps. -/

/-- FG stands inside a QUERY or does not. -/
theorem recv_or_outsideQuery (s : State) : (∃ n, s.fgAt = .recv n) ∨ OutsideQuery s :=
  (em (∃ n, s.fgAt = .recv n)).imp_right fun h n hn => h ⟨n, hn⟩

/-- No internal step of FG writes the configuration, the Decoded Status or MODE. -/
theorem fgStep_keeps_control {s t : State} (h : fgStep s = .next t) :
    t.params = s.params ∧ t.status = s.status ∧ t.mode = s.mode := by
  rcases recv_or_outsideQuery s with hq | ho
  · rw [(fgStep_writes_query (.inr hq) h).1]
    exact ⟨rfl, rfl, rfl⟩
  · rw [(fgStep_writes_send ho h).1]
    exact ⟨rfl, rfl, rfl⟩

/-- The induction over one transition of a run (R48), once for all: what FG's first lines and its operations of one transition,
its internal steps, RXBYTE, a change of the environment and power-up keep, a step keeps. -/
theorem step_keeps {P : State → Prop} {s t : State}
    (hsend : ∀ op dh dl u, P u → P (sendBegin op dh dl u)) (hquery : ∀ e u, P u → P (queryBegin e u))
    (honce : ∀ i u v, NextOperation s i → P u → CompletesAtOnce i u v → P v)
    (hfg : ∀ u v, P u → fgStep u = .next v → P v)
    (hrx : ∀ b u v, P u → u.mode = .async → exec (.rxbyte b) u = .next v → P v)
    (henv : ∀ u e, P u → P (u.setEnv e)) (hpower : PowersUp s → ∀ u, P u → P (powerUpTurn u))
    (hs : P s) (h : step s = .next t) : P t := by
  obtain ⟨turn, e, hturn, hops, -, hpow⟩ := step_eq_next h
  have hstart : ∀ i rest u, NextOperation (s.setEnv e) i →
      startOperation i ((s.setEnv e).setEnv { e with ops := rest }) = .next u → P u := by
    rintro i rest u ⟨hidle, hf, txn, more, ho, hd⟩ hu
    have hnext : NextOperation s i := ⟨hidle, hf, txn, more, hops ▸ ho, hd⟩
    rcases startOperation_eq_next hf hu with ⟨op, dh, dl, -, -, rfl⟩ | ⟨q, -, -, rfl⟩ | hdone
    · exact hsend op dh dl _ (henv _ _ (henv _ _ hs))
    · exact hquery q _ (henv _ _ (henv _ _ hs))
    · exact honce i _ u hnext (henv _ _ (henv _ _ hs)) hdone
  rcases takeTurn_cases hturn with ⟨i, rest, hnext, hx⟩ | ⟨i, rest, hnext, hx⟩ | ⟨n, hx⟩ | ⟨b, rest, hm, -, hx⟩ |
    ⟨e', rfl⟩ | ⟨rfl, rfl⟩
  · obtain ⟨hidle, hf, -⟩ := id hnext
    obtain ⟨u, n, hu, hrun⟩ := exec_eq_next hx hf hidle
    exact fgRun_keeps hfg (hstart i rest u hnext hu) hrun
  · exact hstart i rest t hnext hx
  · exact fgRun_keeps hfg (henv s e hs) hx
  · exact hrx b ((s.setEnv e).setEnv { e with inbound := rest }) t (henv _ _ (henv s e hs)) hm hx
  · exact henv _ e' (henv s e hs)
  · exact hpower (hpow rfl) _ (henv s e hs)

/-- Settles O52: no transition writes `params`, and power-up takes them over. -/
theorem configurationIsNeverWritten : Obligations.ConfigurationIsNeverWritten := by
  intro s t h
  refine step_keeps (P := fun u => u.params = s.params) (fun _ _ _ _ hu => hu) (fun _ _ hu => hu) ?_ ?_ ?_
    (fun _ _ hu => hu) (fun _ _ hu => hu) rfl h
  · exact fun i u v _ hu hdone => hdone.keeps_memories.1.trans hu
  · exact fun u v hu hv => (fgStep_keeps_control hv).1.trans hu
  · exact fun b u v hu hm hv => (congrArg State.params (exec_rxbyte_writes_receive hm hv)).trans hu

/-- Settles O53: of the transitions only SETMODE and power-up write MODE. -/
theorem modeIsWrittenBySetmodeOrReset : Obligations.ModeIsWrittenBySetmodeOrReset := by
  intro s t h hne
  have hmode : t.mode = s.mode ∨ PowersUp s ∨ ∃ m, NextOperation s (.setmode m) ∧ t.mode = m := by
    refine step_keeps (P := fun u => u.mode = s.mode ∨ PowersUp s ∨ ∃ m, NextOperation s (.setmode m) ∧ u.mode = m)
      (fun _ _ _ _ hu => hu) (fun _ _ hu => hu) ?_ ?_ ?_ (fun _ _ hu => hu) (fun hp _ _ => .inr (.inl hp)) (.inl rfl) h
    · rintro i u v hnext hu (⟨r, rfl⟩ | ⟨m, rfl, -, -, rfl⟩ | ⟨mask, rfl, rfl⟩)
      · exact hu
      · exact .inr (.inr ⟨m, hnext, rfl⟩)
      · exact hu
    · intro u v hu hv
      obtain ⟨-, -, hmode⟩ := fgStep_keeps_control hv
      exact hmode.symm ▸ hu
    · intro b u v hu hm hv
      rw [exec_rxbyte_writes_receive hm hv]
      exact hu
  exact hmode.resolve_left hne

/-- In ASYNC mode RXBYTE leaves the status, or dispatches a frame on it (R97, R114). -/
theorem exec_rxbyte_status {b : Byte} {s t : State} (hm : s.mode = .async) (h : exec (.rxbyte b) s = .next t) :
    t.status = s.status ∨ ∃ op dh dl, t.status = dispatchStatus s.params.srcRule op dh dl s.status := by
  rw [exec_rxbyte_async hm] at h
  rcases assemble_cases h with ⟨-, -, rfl⟩ | ⟨-, -, -, rfl⟩ | ⟨-, -, -, u, hu, rfl⟩
  · exact .inl rfl
  · exact .inl rfl
  · obtain ⟨op, dh, dl, -, -, -, rfl⟩ := withFrame_eq_next.mp hu
    exact .inr ⟨op, dh, dl, rfl⟩

/-- A flag that DISPATCH only sets and that CLRSTAT clears by one bit of its mask falls by that bit or by power-up only (R122). -/
theorem flag_falls {flag : Status → Bool} {k : Nat} {s t : State}
    (hdispatch : ∀ rule op dh dl st, flag st = true → flag (dispatchStatus rule op dh dl st) = true)
    (hclear : ∀ mask st, flag (clearStatus mask st) = (flag st && !mask.getLsbD k)) (h : step s = .next t)
    (hset : flag s.status = true) (hfell : flag t.status = false) :
    PowersUp s ∨ ∃ mask, NextOperation s (.clrstat mask) ∧ mask.getLsbD k = true := by
  have hflag : flag t.status = true ∨ PowersUp s ∨
      ∃ mask, NextOperation s (.clrstat mask) ∧ mask.getLsbD k = true := by
    refine step_keeps (P := fun u => flag u.status = true ∨ PowersUp s ∨
        ∃ mask, NextOperation s (.clrstat mask) ∧ mask.getLsbD k = true)
      (fun _ _ _ _ hu => hu) (fun _ _ hu => hu) ?_ ?_ ?_ (fun _ _ hu => hu) (fun hp _ _ => .inr (.inl hp)) (.inl hset) h
    · rintro i u v hnext hu (⟨r, rfl⟩ | ⟨m, rfl, -, -, rfl⟩ | ⟨mask, rfl, rfl⟩)
      · exact hu
      · exact hu
      · cases hbit : mask.getLsbD k with
        | true => exact .inr (.inr ⟨mask, hnext, hbit⟩)
        | false =>
          refine hu.imp_left fun hu => ?_
          rw [State.setStatus_status, hclear, hu, hbit]
          rfl
    · intro u v hu hv
      obtain ⟨-, hstatus, -⟩ := fgStep_keeps_control hv
      exact hstatus.symm ▸ hu
    · intro b u v hu hm hv
      refine hu.imp_left fun hu => ?_
      rcases exec_rxbyte_status hm hv with hst | ⟨op, dh, dl, hst⟩
      · rw [hst, hu]
      · rw [hst, hdispatch _ _ _ _ _ hu]
  exact hflag.resolve_left (by rw [hfell]; decide)

/-- DISPATCH's two matches only set flags (R122). -/
theorem dispatchStatus_sets (rule : SrcRule) (op dh dl : Byte) (st : Status) :
    (st.ready = true → (dispatchStatus rule op dh dl st).ready = true) ∧
    (st.done = true → (dispatchStatus rule op dh dl st).done = true) ∧
    (st.ok = true → (dispatchStatus rule op dh dl st).ok = true) := by
  rw [dispatchStatus_eq]
  unfold statusByOpcode
  split_ifs
  · exact ⟨id, fun _ => rfl, id⟩
  · exact ⟨fun _ => rfl, id, id⟩
  · exact ⟨id, id, id⟩
  · exact ⟨id, id, fun _ => rfl⟩
  · exact ⟨id, id, id⟩

/-- Settles O54: for each of the three flags, with its bit of CLRSTAT's mask. -/
theorem flagsFallByClrstatOrReset : Obligations.FlagsFallByClrstatOrReset := fun _ _ h =>
  ⟨flag_falls (flag := Status.ready) (fun rule op dh dl st => (dispatchStatus_sets rule op dh dl st).1) (fun _ _ => rfl) h,
    flag_falls (flag := Status.done) (fun rule op dh dl st => (dispatchStatus_sets rule op dh dl st).2.1) (fun _ _ => rfl) h,
    flag_falls (flag := Status.ok) (fun rule op dh dl st => (dispatchStatus_sets rule op dh dl st).2.2) (fun _ _ => rfl) h⟩

/-! Reception along a step. -/

/-- R33 (b) is a fact about the configuration, CUR and RXB. -/
theorem StartInv.congr {s t : State} (h : StartInv s) (hp : t.params = s.params) (hc : t.cur = s.cur)
    (hr : t.rxb = s.rxb) : StartInv t := fun hf hpos => hr ▸ h (hp ▸ hf) (hc ▸ hpos)

/-- The Assembler keeps START at the head: at CUR = 0 it stores nothing else, behind it the head is not written (R99, R100). -/
theorem assemble_keeps_start {k : State → Answer} {b : Byte} {s t : State} (hs : StartInv s)
    (h : assemble k b s = .next t) : StartInv t := by
  rcases assemble_cases h with ⟨-, -, rfl⟩ | ⟨hstart, -, -, rfl⟩ | ⟨-, -, -, u, -, rfl⟩
  · exact hs
  · intro hf _
    rw [storeAndAdvance_rxb, Memory.read_write]
    split
    · next h0 => rw [hstart ((cur_eq_zero_iff _).mpr h0.symm)]
    · next h0 => exact hs hf (Nat.pos_of_ne_zero (Ne.symm h0))
  · exact fun _ hpos => absurd hpos (Nat.lt_irrefl 0)

/-- So does every internal step of FG: outside a QUERY it does not receive, and `blind` has no claim (R33 (b), R126). -/
theorem fgStep_keeps_start {s t : State} (hs : StartInv s) (h : fgStep s = .next t) : StartInv t := by
  rcases recv_or_outsideQuery s with ⟨n, hp⟩ | ho
  · rw [fgStep_recv hp] at h
    rcases recvStep_cases h with ⟨-, rfl⟩ | ⟨b, rest, -, ⟨-, ha⟩ | ⟨hblind, -⟩⟩
    · exact hs
    · exact assemble_keeps_start (s := s.setInbound rest) hs ha
    · intro hf
      rw [(recvStep_writes_query hp h).1] at hf
      exact absurd (hblind.symm.trans hf) SyncFraming.noConfusion
  · rw [(fgStep_writes_send ho h).1]
    exact hs.congr rfl rfl rfl

/-- Settles O50: only the Assembler's step writes CUR and RXB under `resync`, and power-up sets CUR = 0. -/
theorem stepKeepsStartAtTheHead : Obligations.StepKeepsStartAtTheHead := by
  intro s t hs h
  refine step_keeps (P := StartInv) (fun _ _ _ _ hu => hu) (fun _ _ hu => hu) ?_ (fun _ _ => fgStep_keeps_start) ?_
    (fun _ _ hu => hu) (fun _ _ _ => startInv_afterPowerUp _ _ _) hs h
  · intro i u v _ hu hdone
    obtain ⟨hp, hr, hc, -⟩ := hdone.keeps_memories
    exact hu.congr hp hc hr
  · intro b u v hu hm hv
    exact assemble_keeps_start hu ((exec_rxbyte_async hm b).symm.trans hv)

/-- No byte waits, and CUR and RXB are those of `s` (R104). -/
def CursorStalled (s u : State) : Prop := u.cur = s.cur ∧ u.rxb = s.rxb ∧ u.env.inbound = []

/-- Without a byte an internal step of FG does not move the cursor (R104, R130). -/
theorem fgStep_keeps_cursor {s u v : State} (hu : CursorStalled s u) (h : fgStep u = .next v) : CursorStalled s v := by
  obtain ⟨hc, hr, hin⟩ := hu
  rcases recv_or_outsideQuery u with hq | ho
  · rw [fgStep_of_blocked (.inr (.inr ⟨hq, hin⟩))] at h
    cases h
    exact ⟨hc, hr, hin⟩
  · rw [(fgStep_writes_send ho h).1]
    exact ⟨hc, hr, hin⟩

theorem startOperation_keeps_cursor {i : Instr} {s u v : State} (hf : isForeground i = true) (hu : CursorStalled s u)
    (h : startOperation i u = .next v) : CursorStalled s v := by
  obtain ⟨hc, hr, hin⟩ := hu
  rcases startOperation_eq_next hf h with ⟨op, dh, dl, -, -, rfl⟩ | ⟨e, -, -, rfl⟩ | hdone
  · exact ⟨hc, hr, hin⟩
  · exact ⟨hc, hr, hin⟩
  · obtain ⟨-, hr', hc', henv⟩ := hdone.keeps_memories
    exact ⟨hc'.trans hc, hr'.trans hr, henv ▸ hin⟩

/-- Settles O56: FG's operations take no byte where none waits, and IRQ has none to take. -/
theorem cursorStallsWithoutBytes : Obligations.CursorStallsWithoutBytes := by
  intro s t h hpower hin
  obtain ⟨turn, e, hturn, -, hin', hpow⟩ := step_eq_next h
  have hstalled : ∀ ops, CursorStalled s ((s.setEnv e).setEnv { e with ops := ops }) := fun _ =>
    ⟨rfl, rfl, hin'.trans hin⟩
  rcases takeTurn_cases hturn with ⟨i, rest, ⟨hidle, hf, -⟩, hx⟩ | ⟨i, rest, ⟨-, hf, -⟩, hx⟩ | ⟨n, hx⟩ |
    ⟨b, rest, -, hbyte, -⟩ | ⟨e', rfl⟩ | ⟨rfl, -⟩
  · obtain ⟨u, n, hu, hrun⟩ := exec_eq_next hx hf hidle
    obtain ⟨hc, hr, -⟩ := fgRun_keeps (P := CursorStalled s) (fun _ _ => fgStep_keeps_cursor)
      (startOperation_keeps_cursor hf (hstalled rest) hu) hrun
    exact ⟨hc, hr⟩
  · obtain ⟨hc, hr, -⟩ := startOperation_keeps_cursor hf (hstalled rest) hx
    exact ⟨hc, hr⟩
  · obtain ⟨hc, hr, -⟩ := fgRun_keeps (P := CursorStalled s) (fun _ _ => fgStep_keeps_cursor) (hstalled e.ops) hx
    exact ⟨hc, hr⟩
  · rw [State.setEnv_env, hin', hin] at hbyte
    cases hbyte
  · exact ⟨rfl, rfl⟩
  · exact absurd (hpow rfl) hpower

end Sys2Proof.Machine
end

section
/-! SUPPORT. The machine's invariant (R33 (a), (c); R230): every transition keeps it and none faults (R36, R189); a blocked FG
(R194). Settles O49, O51, O57. -/

namespace Sys2Proof.Machine

/-- An answer that is no fault, and of which a next state meets the invariant. -/
def Sound (a : Answer) : Prop :=
  match a with
  | .next t => StateInv t
  | .fault _ => False
  | .refused _ => True

theorem Sound.ne_fault {a : Answer} (h : Sound a) (f : Fault) : a ≠ .fault f := by
  rintro rfl
  exact h

theorem Sound.of_next {a : Answer} {t : State} (h : Sound a) (ht : a = .next t) : StateInv t := by
  subst ht
  exact h

theorem Sound.andThen {a : Answer} {k : State → Answer} (ha : Sound a) (hk : ∀ t, StateInv t → Sound (k t)) :
    Sound (andThen a k) := by
  cases a with
  | next t => exact hk t ha
  | fault f => exact ha
  | refused r => trivial

/-! What FG's point says. -/

/-- With TXBUSY = 0 and QACTIVE = 0 FG is between operations (R26, R27). -/
theorem FgConsistent.idle_of_quiet {s : State} (h : FgConsistent s) (htx : s.txbusy = false) (hq : s.qactive = false) :
    s.fgAt = .idle := by
  unfold FgConsistent at h
  split at h
  case h_1 hp => exact hp
  case h_8 => exact absurd (hq.symm.trans h.2.1) Bool.false_ne_true
  all_goals exact absurd (htx.symm.trans h.1) Bool.false_ne_true

theorem FgConsistent.of_idle {s : State} (h : FgConsistent s) (hp : s.fgAt = .idle) :
    s.txbusy = false ∧ s.qactive = false := by
  rw [FgConsistent, hp] at h
  exact h

theorem FgConsistent.of_recv {s : State} {n : Nat} (h : FgConsistent s) (hp : s.fgAt = .recv n) :
    s.txbusy = false ∧ s.qactive = true ∧ s.mode = .sync ∧ (s.params.framing = .resync → n = 0) ∧
      (s.params.framing = .blind → n < frameSize s.params.variant ∧ Memory.Holds s.rxb n) := by
  rw [FgConsistent, hp] at h
  exact h

theorem FgConsistent.of_sendCall {s : State} {i : Nat} (h : FgConsistent s) (hp : s.fgAt = .sendCall i) :
    s.txbusy = true ∧ s.qactive = false ∧ i < frameSize s.params.variant ∧
      Memory.Holds s.txb (frameSize s.params.variant) := by
  rw [FgConsistent, hp] at h
  exact h

theorem FgConsistent.of_delayWait {s : State} (h : FgConsistent s) (hp : s.fgAt = .delayWait) :
    s.txbusy = true ∧ s.qactive = false ∧ s.params.variant = .slow := by
  rw [FgConsistent, hp] at h
  exact h

/-- Values gained by RXB do not disturb where FG stands. -/
theorem FgConsistent.setRxb {s : State} {m : Memory} (h : FgConsistent s) (hm : ∀ n, s.rxb.Holds n → m.Holds n) :
    FgConsistent (s.setRxb m) := by
  cases hp : s.fgAt with
  | recv n =>
    obtain ⟨htx, hq, hmode, hresync, hblind⟩ := h.of_recv hp
    rw [FgConsistent, State.setRxb_fgAt, hp]
    exact ⟨htx, hq, hmode, hresync, fun hf => (hblind hf).imp_right (hm n)⟩
  | idle | encodeCall | fill | sendCall | delayCall | delayWait | sendDone =>
    rw [FgConsistent, hp] at h
    rw [FgConsistent, State.setRxb_fgAt, hp]
    exact h

/-- FG before the rest of line 3 of SEND, or behind it (R88). -/
theorem fgConsistent_fillPoint {s : State} {i : Nat} {bs : List Byte} (htx : s.txbusy = true) (hq : s.qactive = false)
    (hlen : i + bs.length = frameSize s.params.variant) (hh : s.txb.Holds i) : FgConsistent (s.setFgAt (fillPoint i bs)) := by
  cases bs with
  | nil =>
    have h8 := (frameSize_bounds s.params.variant).1
    rw [List.length_nil, Nat.add_zero] at hlen
    have hpos : 0 < frameSize s.params.variant := by omega
    exact ⟨htx, hq, hpos, hlen ▸ hh⟩
  | cons b rest =>
    rw [List.length_cons] at hlen
    have hlen' : i + 1 + rest.length = frameSize s.params.variant := by omega
    exact ⟨htx, hq, hlen', hh⟩

/-- FG before the rest of line 4 of SEND, or behind it (R89, R90). -/
theorem fgConsistent_sendPoint {s : State} (i : Nat) (htx : s.txbusy = true) (hq : s.qactive = false)
    (hh : s.txb.Holds (frameSize s.params.variant)) : FgConsistent (s.setFgAt (sendPoint s.params.variant i)) := by
  unfold sendPoint
  split_ifs with hi hslow
  · exact ⟨htx, hq, hi, hh⟩
  · exact ⟨htx, hq, hslow⟩
  · exact ⟨htx, hq⟩

/-! Reception. -/

/-- A byte stored at the cursor keeps the invariant for every cursor up to the one behind it: the next one where the frame goes
on, 0 where it is complete (R29, R33). -/
theorem StateInv.store {s : State} (h : StateInv s) (b : Byte) {c : BitVec CUR_BITS}
    (hc : c.toNat < frameSize s.params.variant) (hle : c.toNat ≤ s.cur.toNat + 1) :
    StateInv ((storeAndAdvance b s).setCur c) := by
  obtain ⟨htxb, hrxb, hcur, hholds, hfg⟩ := h
  have hb : s.cur.toNat < BUF_SIZE := hcur.trans_le (frameSize_bounds s.params.variant).2
  have hnext : (s.rxb.write s.cur.toNat b).Holds (s.cur.toNat + 1) := hholds.write_next
  have hfg' : FgConsistent (s.setRxb (s.rxb.write s.cur.toNat b)) := hfg.setRxb fun n hn => hn.write
  exact ⟨htxb, Memory.wf_write hrxb hb, hc, fun i hi => hnext i (hi.trans_le hle), hfg'⟩

/-- The Assembler's step is sound for every use of the completed frame that keeps the invariant (R97, R101). -/
theorem assemble_sound {k : Byte → Byte → Byte → State → State} {b : Byte} {s : State} (h : StateInv s)
    (hk : ∀ op dh dl, StateInv ((storeAndAdvance b s).setCur 0) → StateInv ((k op dh dl (storeAndAdvance b s)).setCur 0)) :
    Sound (assemble (withFrame k) b s) := by
  have h8 := (frameSize_bounds s.params.variant).1
  obtain ⟨-, -, hcur, hholds, -⟩ := id h
  have hb : s.cur.toNat < BUF_SIZE := hcur.trans_le (frameSize_bounds s.params.variant).2
  by_cases hd : s.cur = 0 ∧ b ≠ START
  · rw [assemble_discard hd.1 hd.2]
    exact h
  · have hs : s.cur = 0 → b = START := fun h0 => not_not.mp fun hne => hd ⟨h0, hne⟩
    by_cases hl : s.cur.toNat + 1 = frameSize s.params.variant
    · have hfull : (storeAndAdvance b s).rxb.Holds (frameSize s.params.variant) := hl ▸ hholds.write_next
      obtain ⟨op, dh, dl, -, -, -, hread⟩ := withFrame_of_holds (k := k) (s := storeAndAdvance b s) hfull
      have hpos : 0 < frameSize s.params.variant := by omega
      rw [assemble_complete hs hb hl hread]
      exact hk op dh dl (h.store b hpos (Nat.zero_le _))
    · have hadv : (s.cur + 1).toNat = s.cur.toNat + 1 := cur_advance hb
      rw [assemble_store hs hb hl]
      exact h.store b (c := s.cur + 1) (by omega) hadv.le

/-- The end of a QUERY leaves FG between operations (R124). -/
theorem stateInv_finishQuery {s : State} (htxb : s.txb.wf = true) (hrxb : s.rxb.wf = true)
    (hcur : s.cur.toNat < frameSize s.params.variant) (hholds : s.rxb.Holds s.cur.toNat) (htx : s.txbusy = false)
    (op dh dl : Byte) : StateInv (finishQuery op dh dl s) :=
  ⟨htxb, hrxb, hcur, hholds, htx, rfl⟩

/-- `recv` and the handling of its byte (R125, R126): under `blind` the invariant's point counts the bytes that are stored. -/
theorem recvStep_sound {s : State} {n : Nat} (h : StateInv s) (hp : s.fgAt = .recv n) : Sound (fgStep s) := by
  obtain ⟨htxb, hrxb, hcur, hholds, hfg⟩ := h
  obtain ⟨htx, hq, hmode, hresync, hblind⟩ := hfg.of_recv hp
  cases hin : s.env.inbound with
  | nil =>
    rw [fgStep_of_blocked (.inr (.inr ⟨⟨n, hp⟩, hin⟩))]
    exact ⟨htxb, hrxb, hcur, hholds, hfg⟩
  | cons b rest =>
    cases hf : s.params.framing with
    | resync =>
      rw [fgStep_recv_resync hp hf hin]
      refine assemble_sound (s := s.setInbound rest) ⟨htxb, hrxb, hcur, hholds, hfg⟩ fun op dh dl hstored => ?_
      obtain ⟨htxb', hrxb', hcur', hholds', -⟩ := hstored
      exact stateInv_finishQuery (s := (storeAndAdvance b (s.setInbound rest)).setCur 0) htxb' hrxb' hcur' hholds' htx op dh dl
    | blind =>
      obtain ⟨hn, hholdsn⟩ := hblind hf
      have hb : n < BUF_SIZE := hn.trans_le (frameSize_bounds s.params.variant).2
      have hrxb' : (s.rxb.write n b).wf = true := Memory.wf_write hrxb hb
      have hfull : (s.rxb.write n b).Holds (n + 1) := hholdsn.write_next
      by_cases hl : n + 1 = frameSize s.params.variant
      · obtain ⟨op, dh, dl, -, -, -, hread⟩ := withFrame_of_holds (k := finishQuery)
          (s := ((s.setInbound rest).setRxb (s.rxb.write n b)).setFgAt (.recv (n + 1))) (hl ▸ hfull)
        rw [fgStep_recv_blind_last hp hf hin hl, hread]
        exact stateInv_finishQuery (s := ((s.setInbound rest).setRxb (s.rxb.write n b)).setFgAt (.recv (n + 1)))
          htxb hrxb' hcur hholds.write htx op dh dl
      · have hn' : n + 1 < frameSize s.params.variant := by omega
        have hnot : s.params.framing ≠ .resync := by rw [hf]; exact SyncFraming.noConfusion
        rw [fgStep_recv_blind_store hp hf hin hn']
        exact ⟨htxb, hrxb', hcur, hholds.write, htx, hq, hmode, fun hr => absurd hr hnot, fun _ => ⟨hn', hfull⟩⟩

/-! FG's internal steps and its operations. -/

/-- One internal step of FG, by where FG stands (R48). -/
theorem fgStep_sound {s : State} (h : StateInv s) : Sound (fgStep s) := by
  cases hp : s.fgAt with
  | recv n => exact recvStep_sound h hp
  | idle =>
    rw [fgStep_of_idle hp]
    exact h
  | encodeCall op dh dl =>
    obtain ⟨htxb, hrxb, hcur, hholds, hfg⟩ := h
    rw [FgConsistent, hp] at hfg
    have hpoint : FgConsistent (encodeStep op dh dl s) := fgConsistent_fillPoint hfg.1 hfg.2
      ((Nat.zero_add _).trans (encodeFrame_length _ op dh dl)) fun i hi => absurd hi (Nat.not_lt_zero i)
    rw [fgStep, hp]
    exact ⟨htxb, hrxb, hcur, hholds, hpoint⟩
  | fill i b rest =>
    obtain ⟨htxb, hrxb, hcur, hholds, hfg⟩ := h
    rw [FgConsistent, hp] at hfg
    obtain ⟨htx, hq, hlen, hfilled⟩ := hfg
    have h10 := (frameSize_bounds s.params.variant).2
    have hi : i < BUF_SIZE := by omega
    have hpoint : FgConsistent ((s.setTxb (s.txb.write i b)).setFgAt (fillPoint (i + 1) rest)) :=
      fgConsistent_fillPoint (s := s.setTxb (s.txb.write i b)) htx hq hlen hfilled.write_next
    rw [fgStep, hp]
    dsimp only
    rw [fillStep, if_pos hi]
    exact ⟨Memory.wf_write htxb hi, hrxb, hcur, hholds, hpoint⟩
  | sendCall i =>
    cases hsink : s.env.sinkReady with
    | false =>
      rw [fgStep_of_blocked (.inl ⟨⟨i, hp⟩, hsink⟩)]
      exact h
    | true =>
      obtain ⟨htxb, hrxb, hcur, hholds, hfg⟩ := h
      obtain ⟨htx, hq, hi, hfilled⟩ := hfg.of_sendCall hp
      obtain ⟨b, hb⟩ := hfilled.read hi
      have hpoint : FgConsistent ((s.record (.sent b)).setFgAt (sendPoint s.params.variant (i + 1))) :=
        fgConsistent_sendPoint (s := s.record (.sent b)) (i + 1) htx hq hfilled
      rw [fgStep, hp]
      dsimp only
      rw [sendCallStep, if_pos hsink, hb]
      exact ⟨htxb, hrxb, hcur, hholds, hpoint⟩
  | delayCall =>
    obtain ⟨htxb, hrxb, hcur, hholds, hfg⟩ := h
    rw [FgConsistent, hp] at hfg
    rw [fgStep, hp]
    exact ⟨htxb, hrxb, hcur, hholds, hfg⟩
  | delayWait =>
    cases hdelay : s.env.delayReady with
    | false =>
      rw [fgStep_of_blocked (.inr (.inl ⟨hp, hdelay⟩))]
      exact h
    | true =>
      obtain ⟨htxb, hrxb, hcur, hholds, hfg⟩ := h
      obtain ⟨htx, hq, -⟩ := hfg.of_delayWait hp
      rw [fgStep, hp]
      dsimp only
      rw [if_pos hdelay]
      exact ⟨htxb, hrxb, hcur, hholds, htx, hq⟩
  | sendDone =>
    obtain ⟨htxb, hrxb, hcur, hholds, hfg⟩ := h
    rw [FgConsistent, hp] at hfg
    rw [fgStep, hp]
    exact ⟨htxb, hrxb, hcur, hholds, rfl, hfg.2⟩

theorem fgRun_sound (n : Nat) {s : State} (h : StateInv s) : Sound (fgRun n s) := by
  induction n generalizing s with
  | zero => exact h
  | succ n ih => exact (fgStep_sound h).andThen fun t ht => ih ht

theorem sendStart_sound (op dh dl : Byte) {s : State} (h : StateInv s) : Sound (sendStart op dh dl s) := by
  unfold sendStart
  split
  · trivial
  · split
    · next hidle =>
      obtain ⟨htxb, hrxb, hcur, hholds, hfg⟩ := h
      exact ⟨htxb, hrxb, hcur, hholds, rfl, (hfg.of_idle hidle).2⟩
    · trivial

theorem queryStart_sound (e : Byte) {s : State} (h : StateInv s) : Sound (queryStart e s) := by
  unfold queryStart
  split
  · trivial
  · next hm =>
    split
    · next hidle =>
      obtain ⟨htxb, hrxb, hcur, hholds, hfg⟩ := h
      have hmode : s.mode = .sync := by
        cases hx : s.mode with
        | sync => rfl
        | async => exact absurd hx hm
      have h8 := (frameSize_bounds s.params.variant).1
      have hpos : 0 < frameSize s.params.variant := by omega
      exact ⟨htxb, hrxb, hcur, hholds, (hfg.of_idle hidle).1, rfl, hmode, fun _ => rfl,
        fun _ => ⟨hpos, fun i hi => absurd hi (Nat.not_lt_zero i)⟩⟩
    · trivial

theorem CompletesAtOnce.keeps_inv {i : Instr} {s t : State} (hdone : CompletesAtOnce i s t) (h : StateInv s) :
    StateInv t := by
  rcases hdone with ⟨r, rfl⟩ | ⟨m, -, htx, hq, rfl⟩ | ⟨mask, -, rfl⟩
  · exact h
  · obtain ⟨htxb, hrxb, hcur, hholds, hfg⟩ := h
    have hfg' : FgConsistent (s.setMode m) := by
      rw [FgConsistent, State.setMode_fgAt, hfg.idle_of_quiet htx hq]
      exact ⟨htx, hq⟩
    exact ⟨htxb, hrxb, hcur, hholds, hfg'⟩
  · exact h

/-- The first transition of every operation of FG (R48). -/
theorem startOperation_sound {i : Instr} (hf : isForeground i = true) {s : State} (h : StateInv s) :
    Sound (startOperation i s) := by
  rcases foreground_cases hf with ⟨op, dh, dl, -, hstart⟩ | ⟨e, rfl⟩ | ⟨hstart, honce⟩
  · rw [hstart]
    exact sendStart_sound op dh dl h
  · exact queryStart_sound e h
  · rw [hstart]
    rcases honce s with ⟨r, hr⟩ | ⟨t, ht, hdone⟩
    · rw [hr]
      trivial
    · rw [ht]
      exact hdone.keeps_inv h

/-! The turns and the step. -/

theorem issueWith_startOperation_sound {s : State} (h : StateInv s) : Sound (issueWith startOperation s) := by
  unfold issueWith
  split
  · exact h
  · split
    · split
      · next hf => exact startOperation_sound hf h
      · trivial
    · trivial

theorem irqTurn_sound {s : State} (h : StateInv s) : Sound (irqTurn s) := by
  unfold irqTurn
  split
  · next b rest hm hin =>
    change Sound (exec (.rxbyte b) (s.setInbound rest))
    rw [exec_rxbyte_async (s := s.setInbound rest) hm]
    exact assemble_sound (s := s.setInbound rest) h fun _ _ _ hstored => hstored
  · exact h

/-- Every agent's turn is sound (R33, R36, R189). -/
theorem takeTurn_sound (turn : Turn) {s : State} (h : StateInv s) : Sound (takeTurn turn s) := by
  cases turn with
  | fg =>
    rw [takeTurn]
    by_cases hidle : s.fgAt = .idle
    · rw [fgTurn_of_idle hidle]
      exact (issueWith_startOperation_sound h).andThen fun t ht => fgRun_sound _ ht
    · rw [fgTurn_of_busy hidle]
      exact fgRun_sound _ h
  | fgInternal =>
    rw [takeTurn]
    by_cases hidle : s.fgAt = .idle
    · rw [fgInternalTurn_of_idle hidle]
      exact issueWith_startOperation_sound h
    · rw [fgInternalTurn_of_busy hidle]
      exact fgStep_sound h
  | irq => exact irqTurn_sound h
  | arrive b => exact h
  | sink r => exact h
  | dly r => exact h
  | powerUp => exact stateInv_afterPowerUp _ _ _

theorem step_sound {s : State} (h : StateInv s) : Sound (step s) := by
  unfold step nextTransition
  split
  · exact takeTurn_sound _ h
  · exact takeTurn_sound _ (s := s.setEnv _) h

/-- Settles O49: every step is sound. -/
theorem stepKeepsTheInvariant : Obligations.StepKeepsTheInvariant := fun _ _ h ht => (step_sound h).of_next ht

/-- Settles O51: every step is sound. -/
theorem noStepFaults : Obligations.NoStepFaults := fun _ f h => (step_sound h).ne_fault f

/-- Settles O57: where FG is blocked it is inside an operation, whose bit is set; RXBYTE does not ask where FG stands. -/
theorem stuckIsNotEnded : Obligations.StuckIsNotEnded := by
  rintro s ⟨-, -, hcur, hholds, hfg⟩ hblocked
  obtain ⟨hturn, hinternal⟩ := takeTurn_of_blocked hblocked
  refine ⟨hturn, hinternal, fun ⟨_, _, hidle, _⟩ => fgAt_ne_idle_of_blocked hblocked hidle, ?_, ?_, ?_⟩
  · rintro (⟨i, hp⟩ | hp)
    · exact (hfg.of_sendCall hp).1
    · exact (hfg.of_delayWait hp).1
  · intro n hp
    obtain ⟨-, hq, -⟩ := hfg.of_recv hp
    exact hq
  · exact fun hm b => exec_rxbyte_async_answers hm hcur hholds b

end Sys2Proof.Machine
end
